-- ==== Sys2Proof/Word.lean ====
section
/-! DEFINITION. The word types: every register and port of the block is one byte (00_scope.md R6), and
the encoded objects are 16-bit words (30_encoding.md R73, R88). -/

namespace Sys2Proof

/-- An 8-bit unsigned value, the width of every register and port (00_scope.md R6, R10). Addition and
subtraction wrap modulo 256, the `+8` and `-8` of R10. -/
abbrev Byte := BitVec 8

/-- The width of the host command word and of `controlB ∥ controlA` (30_encoding.md R73, R88). -/
abbrev Word16 := BitVec 16

end Sys2Proof
end

