-- ==== Sys2Proof/Syntax.lean ====
section
/-! DEFINITION. The operations of the block as syntax: `Instr` has one constructor per row of
spec/opcode_table.json (30_encoding.md R91), host commands and internal operations alike. -/

namespace Sys2Proof

/-- An output-compare pin (00_scope.md R10: pins are indexed A and B). -/
inductive Pin where
  | a | b
deriving DecidableEq, Repr

/-- The seven ports of the Register File (20_memory.md R51), in index order. -/
inductive Port where
  | ctrla | ctrlb | count | cmpa | cmpb | mask | flags
deriving DecidableEq, Repr

/-- The three interrupt sources, each also the abstract name of its vector (44_interrupt_dispatch.md
R190, 60_exceptions.md R203). -/
inductive Source where
  | ovf | compa | compb
deriving DecidableEq, Repr

/-- The eight values of the mode selector WGM, in order 0 to 7 (30_encoding.md R75). -/
inductive Mode where
  | normal | pcpwmFf | ctc | fastpwmFf | reserved4 | pcpwmOcra | reserved6 | fastpwmOcra
deriving DecidableEq, Repr

/-- The eight values of the clock-select field CS, in order 0 to 7 (30_encoding.md R76). -/
inductive ClockSelect where
  | stop | div1 | div8 | div64 | div256 | div1024 | ext6 | ext7
deriving DecidableEq, Repr

/-- The four values of a compare-output-mode field; what one means depends on the mode class
(30_encoding.md R77 to R79, R84). -/
inductive Com where
  | com0 | com1 | com2 | com3
deriving DecidableEq, Repr

/-- The encoded objects of 30_encoding.md R92: the host command word (R88), the control word
controlB ∥ controlA read as WGM selector, CS selector or pin logic of one pin (R73, R91), and the
interrupt selector (R82). -/
inductive Format where
  | hcw | wgm | cs | pinA | pinB | irq3
deriving DecidableEq, Repr

/-- One constructor per row of spec/opcode_table.json. The first eighteen are the host commands of
30_encoding.md R88; the others are the internal operations, which have no command word and are
selected by register fields. Operands are those the rules name: the data byte of a write, the host
tick count `n` of ADVANCE and of the CLK rows, the pin set of FOC, pin and sink of ATTACHSINK, and the
latched count `c0` of the PWM pin logic (42_waveform_tick.md R144, R145). -/
inductive Instr where
  | rdCtrla  -- RD_CTRLA, R101
  | wrCtrla (v : Byte)  -- WR_CTRLA, R102
  | rdCtrlb  -- RD_CTRLB, R103
  | wrCtrlb (v : Byte)  -- WR_CTRLB, R104
  | rdCount  -- RD_COUNT, R105
  | wrCount (v : Byte)  -- WR_COUNT, R106
  | rdCmpa  -- RD_CMPA, R107
  | wrCmpa (v : Byte)  -- WR_CMPA, R108
  | rdCmpb  -- RD_CMPB, R109
  | wrCmpb (v : Byte)  -- WR_CMPB, R110
  | rdMask  -- RD_MASK, R111
  | wrMask (v : Byte)  -- WR_MASK, R112
  | rdFlags  -- RD_FLAGS, R113
  | wrFlags (v : Byte)  -- WR_FLAGS, R114
  | advance (n : Nat)  -- ADVANCE, R171
  | foc (a : Bool) (b : Bool)  -- FOC, R149
  | attachSink (pin : Pin) (sink : Nat)  -- ATTACHSINK, R124
  | reset  -- RESET, R230
  | tickNormal  -- TICK.NORMAL, R135
  | tickPcpwmFf  -- TICK.PCPWM_FF, R142
  | tickCtc  -- TICK.CTC, R136
  | tickFastpwmFf  -- TICK.FASTPWM_FF, R139
  | tickReserved4  -- TICK.RESERVED4, R137
  | tickPcpwmOcra  -- TICK.PCPWM_OCRA, R143
  | tickReserved6  -- TICK.RESERVED6, R137
  | tickFastpwmOcra  -- TICK.FASTPWM_OCRA, R140
  | clkStop (n : Nat)  -- CLK.STOP, R173
  | clkDiv1 (n : Nat)  -- CLK.DIV1, R172
  | clkDiv8 (n : Nat)  -- CLK.DIV8, R172
  | clkDiv64 (n : Nat)  -- CLK.DIV64, R172
  | clkDiv256 (n : Nat)  -- CLK.DIV256, R172
  | clkDiv1024 (n : Nat)  -- CLK.DIV1024, R172
  | clkExt6 (n : Nat)  -- CLK.EXT6, R174
  | clkExt7 (n : Nat)  -- CLK.EXT7, R174
  | pinAWgm0Com0  -- PINA.WGM0.COM0, R134
  | pinAWgm0Com1  -- PINA.WGM0.COM1, R134
  | pinAWgm0Com2  -- PINA.WGM0.COM2, R134
  | pinAWgm0Com3  -- PINA.WGM0.COM3, R134
  | pinBWgm0Com0  -- PINB.WGM0.COM0, R134
  | pinBWgm0Com1  -- PINB.WGM0.COM1, R134
  | pinBWgm0Com2  -- PINB.WGM0.COM2, R134
  | pinBWgm0Com3  -- PINB.WGM0.COM3, R134
  | pinAWgm1Com0 (c0 : Byte)  -- PINA.WGM1.COM0, R145
  | pinAWgm1Com1 (c0 : Byte)  -- PINA.WGM1.COM1, R145
  | pinAWgm1Com2 (c0 : Byte)  -- PINA.WGM1.COM2, R145
  | pinAWgm1Com3 (c0 : Byte)  -- PINA.WGM1.COM3, R145
  | pinBWgm1Com0 (c0 : Byte)  -- PINB.WGM1.COM0, R145
  | pinBWgm1Com1 (c0 : Byte)  -- PINB.WGM1.COM1, R145
  | pinBWgm1Com2 (c0 : Byte)  -- PINB.WGM1.COM2, R145
  | pinBWgm1Com3 (c0 : Byte)  -- PINB.WGM1.COM3, R145
  | pinAWgm2Com0  -- PINA.WGM2.COM0, R134
  | pinAWgm2Com1  -- PINA.WGM2.COM1, R134
  | pinAWgm2Com2  -- PINA.WGM2.COM2, R134
  | pinAWgm2Com3  -- PINA.WGM2.COM3, R134
  | pinBWgm2Com0  -- PINB.WGM2.COM0, R134
  | pinBWgm2Com1  -- PINB.WGM2.COM1, R134
  | pinBWgm2Com2  -- PINB.WGM2.COM2, R134
  | pinBWgm2Com3  -- PINB.WGM2.COM3, R134
  | pinAWgm3Com0 (c0 : Byte)  -- PINA.WGM3.COM0, R144
  | pinAWgm3Com1 (c0 : Byte)  -- PINA.WGM3.COM1, R144
  | pinAWgm3Com2 (c0 : Byte)  -- PINA.WGM3.COM2, R144
  | pinAWgm3Com3 (c0 : Byte)  -- PINA.WGM3.COM3, R144
  | pinBWgm3Com0 (c0 : Byte)  -- PINB.WGM3.COM0, R144
  | pinBWgm3Com1 (c0 : Byte)  -- PINB.WGM3.COM1, R144
  | pinBWgm3Com2 (c0 : Byte)  -- PINB.WGM3.COM2, R144
  | pinBWgm3Com3 (c0 : Byte)  -- PINB.WGM3.COM3, R144
  | pinAWgm4Com0  -- PINA.WGM4.COM0, R134
  | pinAWgm4Com1  -- PINA.WGM4.COM1, R134
  | pinAWgm4Com2  -- PINA.WGM4.COM2, R134
  | pinAWgm4Com3  -- PINA.WGM4.COM3, R134
  | pinBWgm4Com0  -- PINB.WGM4.COM0, R134
  | pinBWgm4Com1  -- PINB.WGM4.COM1, R134
  | pinBWgm4Com2  -- PINB.WGM4.COM2, R134
  | pinBWgm4Com3  -- PINB.WGM4.COM3, R134
  | pinAWgm5Com0 (c0 : Byte)  -- PINA.WGM5.COM0, R145
  | pinAWgm5Com1 (c0 : Byte)  -- PINA.WGM5.COM1, R145
  | pinAWgm5Com2 (c0 : Byte)  -- PINA.WGM5.COM2, R145
  | pinAWgm5Com3 (c0 : Byte)  -- PINA.WGM5.COM3, R145
  | pinBWgm5Com0 (c0 : Byte)  -- PINB.WGM5.COM0, R145
  | pinBWgm5Com1 (c0 : Byte)  -- PINB.WGM5.COM1, R145
  | pinBWgm5Com2 (c0 : Byte)  -- PINB.WGM5.COM2, R145
  | pinBWgm5Com3 (c0 : Byte)  -- PINB.WGM5.COM3, R145
  | pinAWgm6Com0  -- PINA.WGM6.COM0, R134
  | pinAWgm6Com1  -- PINA.WGM6.COM1, R134
  | pinAWgm6Com2  -- PINA.WGM6.COM2, R134
  | pinAWgm6Com3  -- PINA.WGM6.COM3, R134
  | pinBWgm6Com0  -- PINB.WGM6.COM0, R134
  | pinBWgm6Com1  -- PINB.WGM6.COM1, R134
  | pinBWgm6Com2  -- PINB.WGM6.COM2, R134
  | pinBWgm6Com3  -- PINB.WGM6.COM3, R134
  | pinAWgm7Com0 (c0 : Byte)  -- PINA.WGM7.COM0, R144
  | pinAWgm7Com1 (c0 : Byte)  -- PINA.WGM7.COM1, R144
  | pinAWgm7Com2 (c0 : Byte)  -- PINA.WGM7.COM2, R144
  | pinAWgm7Com3 (c0 : Byte)  -- PINA.WGM7.COM3, R144
  | pinBWgm7Com0 (c0 : Byte)  -- PINB.WGM7.COM0, R144
  | pinBWgm7Com1 (c0 : Byte)  -- PINB.WGM7.COM1, R144
  | pinBWgm7Com2 (c0 : Byte)  -- PINB.WGM7.COM2, R144
  | pinBWgm7Com3 (c0 : Byte)  -- PINB.WGM7.COM3, R144
  | dispatchOvf  -- DISPATCH.OVF, R186
  | dispatchCompa  -- DISPATCH.COMPA, R186
  | dispatchCompb  -- DISPATCH.COMPB, R186
  | dispatchNone  -- DISPATCH.NONE, R186
deriving DecidableEq, Repr

/-- The values carried beside an encoded word (30_encoding.md R87): the host tick count, the sink
reference and the latched count. -/
structure Beside where
  ticks : Nat := 0
  sink : Nat := 0
  c0 : Byte := 0
deriving DecidableEq, Repr

/-- One host command as the block receives it (30_encoding.md R87, R88): the 16-bit command word with
its host tick count and sink reference beside it. -/
structure HostCommand where
  word : Word16
  ticks : Nat := 0
  sink : Nat := 0
deriving DecidableEq, Repr

/-- The two pseudo-instructions of the spec's test programs (30_encoding.md R90), with operands as
written in a program text. -/
inductive Pseudo where
  | setMode (w ca cb cs : Nat)
  | clrf (m : Nat)
deriving DecidableEq, Repr

end Sys2Proof
end

