-- ==== Sys2Proof/Config.lean ====
section
/-! DEFINITION. What the spec leaves open (00_scope.md R7): the two Boolean parameters, the host's
answers as a free value, and the attachment of the block to the host's I/O space. -/

namespace Sys2Proof

/-- The two Boolean parameters of 00_scope.md R7. Their values stand in `Machine.State` (log 6,
DESIGN CHOICE), so every statement over all states covers both values of each. The defaults are those
of R7. -/
structure Params where
  /-- `P_INHIBIT_ON_COUNT_WRITE`: WR COUNT sets the inhibit flag (D18). -/
  inhibitOnCountWrite : Bool := false
  /-- `P_FOC_EQUALITY_GATED`: FOC keeps the equality test (D17). -/
  focEqualityGated : Bool := false
deriving DecidableEq, Repr

/-- The host's answers in one peripheral tick (00_scope.md R9): `HostIntEnabled()`, asked once in step 4
of every tick, and the answer to the at most one `HostDispatch(v)` of that tick. -/
structure HostAnswer where
  intEnabled : Bool
  handled : Bool
deriving DecidableEq, Repr, Inhabited

/-- FREE VALUE (log 5): what the host answers in the tick that asks it for the `n`-th time, where no
answer is listed in the state. The spec puts the answers under no law (00_scope.md R9, 93 U11), so
nothing is known of this function. -/
opaque Config.freeAnswer : Nat → HostAnswer

/-- The binding of one timer instance to its host (00_scope.md R7, 70_reset_and_hazards.md R231): the
OPEN parameters `DESIGNATOR`, `PORT_ADDR` and `VECTOR_NAME`. No rule of the block reads them; they
say at which host address each port lies and what the host calls each vector. -/
structure Attachment where
  designator : Nat
  ctrlaAddr : Nat
  ctrlbAddr : Nat
  countAddr : Nat
  cmpaAddr : Nat
  cmpbAddr : Nat
  maskAddr : Nat
  flagsAddr : Nat
  ovfName : String
  compaName : String
  compbName : String
deriving DecidableEq, Repr

end Sys2Proof
end

