-- ==== Sys2Proof/WellFormed.lean ====
section
/-! DEFINITION. The checks on syntax: which operations the host may issue, which words are command
words, which pseudo-instructions and attachments are legal. -/

namespace Sys2Proof

/-- The format of an operation's encoding in spec/opcode_table.json (30_encoding.md R91). -/
def Instr.format : Instr → Format
  | .rdCtrla | .wrCtrla _ | .rdCtrlb | .wrCtrlb _ | .rdCount | .wrCount _ | .rdCmpa | .wrCmpa _
    | .rdCmpb | .wrCmpb _ | .rdMask | .wrMask _ | .rdFlags | .wrFlags _ | .advance _ | .foc _ _
    | .attachSink _ _ | .reset => .hcw
  | .tickNormal | .tickPcpwmFf | .tickCtc | .tickFastpwmFf | .tickReserved4 | .tickPcpwmOcra |
    .tickReserved6 | .tickFastpwmOcra => .wgm
  | .clkStop _ | .clkDiv1 _ | .clkDiv8 _ | .clkDiv64 _ | .clkDiv256 _ | .clkDiv1024 _ | .clkExt6
    _ | .clkExt7 _ => .cs
  | .pinAWgm0Com0 | .pinAWgm0Com1 | .pinAWgm0Com2 | .pinAWgm0Com3 | .pinAWgm1Com0 _ |
    .pinAWgm1Com1 _ | .pinAWgm1Com2 _ | .pinAWgm1Com3 _ | .pinAWgm2Com0 | .pinAWgm2Com1 |
    .pinAWgm2Com2 | .pinAWgm2Com3 | .pinAWgm3Com0 _ | .pinAWgm3Com1 _ | .pinAWgm3Com2 _ |
    .pinAWgm3Com3 _ | .pinAWgm4Com0 | .pinAWgm4Com1 | .pinAWgm4Com2 | .pinAWgm4Com3 |
    .pinAWgm5Com0 _ | .pinAWgm5Com1 _ | .pinAWgm5Com2 _ | .pinAWgm5Com3 _ | .pinAWgm6Com0 |
    .pinAWgm6Com1 | .pinAWgm6Com2 | .pinAWgm6Com3 | .pinAWgm7Com0 _ | .pinAWgm7Com1 _ |
    .pinAWgm7Com2 _ | .pinAWgm7Com3 _ => .pinA
  | .pinBWgm0Com0 | .pinBWgm0Com1 | .pinBWgm0Com2 | .pinBWgm0Com3 | .pinBWgm1Com0 _ |
    .pinBWgm1Com1 _ | .pinBWgm1Com2 _ | .pinBWgm1Com3 _ | .pinBWgm2Com0 | .pinBWgm2Com1 |
    .pinBWgm2Com2 | .pinBWgm2Com3 | .pinBWgm3Com0 _ | .pinBWgm3Com1 _ | .pinBWgm3Com2 _ |
    .pinBWgm3Com3 _ | .pinBWgm4Com0 | .pinBWgm4Com1 | .pinBWgm4Com2 | .pinBWgm4Com3 |
    .pinBWgm5Com0 _ | .pinBWgm5Com1 _ | .pinBWgm5Com2 _ | .pinBWgm5Com3 _ | .pinBWgm6Com0 |
    .pinBWgm6Com1 | .pinBWgm6Com2 | .pinBWgm6Com3 | .pinBWgm7Com0 _ | .pinBWgm7Com1 _ |
    .pinBWgm7Com2 _ | .pinBWgm7Com3 _ => .pinB
  | .dispatchOvf | .dispatchCompa | .dispatchCompb | .dispatchNone => .irq3

/-- The operations a host may issue (30_encoding.md R88: the internal operations "are never issued by the
host and have no command word"). -/
def Instr.isCommand (i : Instr) : Bool := i.format == .hcw

/-- The words that are host commands, by the match and mask columns of 30_encoding.md R88. -/
def commandPatterns : List (Word16 × Word16) :=
  [ (0x0000, 0xFF00), (0x0100, 0xFF00), (0x0200, 0xFF00), (0x0300, 0xFF00), (0x0400, 0xFF00),
    (0x0500, 0xFF00), (0x0600, 0xFF00), (0x1000, 0xFF00), (0x1100, 0xFF00), (0x1200, 0xFF00),
    (0x1300, 0xFF00), (0x1400, 0xFF00), (0x1500, 0xFF00), (0x1600, 0xFF00), (0x2000, 0xFFFF),
    (0x3000, 0xFCFF), (0x4000, 0xFEFF), (0x5000, 0xFFFF) ]

/-- A host command is well formed when its word fits one pattern of 30_encoding.md R88. -/
def HostCommand.wf (c : HostCommand) : Bool :=
  commandPatterns.any (fun p => c.word &&& p.2 == p.1)

/-- The operand ranges of 30_encoding.md R90: `w` and `cs` in 0..7, `ca` and `cb` in 0..3, the flag mask
one byte. -/
def Pseudo.wf : Pseudo → Bool
  | .setMode w ca cb cs => decide (w < 8 ∧ ca < 4 ∧ cb < 4 ∧ cs < 8)
  | .clrf m => decide (m < 256)

/-- The seven port addresses of an attachment. -/
def Attachment.addrs (t : Attachment) : List Nat :=
  [t.ctrlaAddr, t.ctrlbAddr, t.countAddr, t.cmpaAddr, t.cmpbAddr, t.maskAddr, t.flagsAddr]

/-- `PORT_ADDR` and `VECTOR_NAME` are injective maps (00_scope.md R7). -/
def Attachment.wf (t : Attachment) : Bool :=
  decide t.addrs.Nodup && decide [t.ovfName, t.compaName, t.compbName].Nodup

end Sys2Proof
end

