-- ==== Sys2Proof/Decode.lean ====
section
/-! DEFINITION. Decoding: the host command word (30_encoding.md R88), the fields of the control word
`controlB ∥ controlA` (R73 to R76, R81) and the interrupt selector (R82); after it the encoder, written
from the match column of spec/opcode_table.json. -/

namespace Sys2Proof

/-! ### Field codes -/

/-- Port index 0 to 6 in the order of 20_memory.md R51; 7 and above name no port (30_encoding.md R85). -/
def portOfIndex (arg : BitVec 4) : Option Port :=
  if arg = 0 then some .ctrla
  else if arg = 1 then some .ctrlb
  else if arg = 2 then some .count
  else if arg = 3 then some .cmpa
  else if arg = 4 then some .cmpb
  else if arg = 5 then some .mask
  else if arg = 6 then some .flags
  else none

/-- WGM value to mode (30_encoding.md R75). -/
def modeOfBits (b : BitVec 3) : Mode :=
  match b.toFin with
  | 0 => .normal
  | 1 => .pcpwmFf
  | 2 => .ctc
  | 3 => .fastpwmFf
  | 4 => .reserved4
  | 5 => .pcpwmOcra
  | 6 => .reserved6
  | 7 => .fastpwmOcra

/-- CS value to clock select (30_encoding.md R76). -/
def clockOfBits (b : BitVec 3) : ClockSelect :=
  match b.toFin with
  | 0 => .stop
  | 1 => .div1
  | 2 => .div8
  | 3 => .div64
  | 4 => .div256
  | 5 => .div1024
  | 6 => .ext6
  | 7 => .ext7

/-- COM value (30_encoding.md R77 to R79). -/
def comOfBits (b : BitVec 2) : Com :=
  match b.toFin with
  | 0 => .com0
  | 1 => .com1
  | 2 => .com2
  | 3 => .com3

/-- A single pin is one bit, 0 = A, 1 = B (30_encoding.md R86). -/
def pinOfBit (p : Bool) : Pin := if p then .b else .a

/-! ### Fields of `controlB ∥ controlA` (30_encoding.md R73) -/

/-- `WGM = controlB[3] ∥ controlA[1:0]` (30_encoding.md R74): bits 11 and 1:0 of the control word. -/
def wgmField (w : Word16) : BitVec 3 := w.extractLsb' 11 1 ++ w.extractLsb' 0 2

/-- `CS = controlB[2:0]` (30_encoding.md R76): bits 10:8 of the control word. -/
def csField (w : Word16) : BitVec 3 := w.extractLsb' 8 3

/-- `COM-A = controlA[7:6]`, `COM-B = controlA[5:4]` (30_encoding.md R81). -/
def comField : Pin → Word16 → BitVec 2
  | .a, w => w.extractLsb' 6 2
  | .b, w => w.extractLsb' 4 2

/-- `TOGEN = controlB[3]` (30_encoding.md R81): bit 11 of the control word. -/
def togenField (w : Word16) : Bool := w.getLsbD 11

/-! ### Rows of the table by field value -/

/-- The RD command of a port (30_encoding.md R88). -/
def readOf : Port → Instr
  | .ctrla => .rdCtrla
  | .ctrlb => .rdCtrlb
  | .count => .rdCount
  | .cmpa => .rdCmpa
  | .cmpb => .rdCmpb
  | .mask => .rdMask
  | .flags => .rdFlags

/-- The WR command of a port (30_encoding.md R88). -/
def writeOf : Port → Byte → Instr
  | .ctrla, v => .wrCtrla v
  | .ctrlb, v => .wrCtrlb v
  | .count, v => .wrCount v
  | .cmpa, v => .wrCmpa v
  | .cmpb, v => .wrCmpb v
  | .mask, v => .wrMask v
  | .flags, v => .wrFlags v

/-- The tick of a mode (30_encoding.md R75). -/
def tickOf : Mode → Instr
  | .normal => .tickNormal
  | .pcpwmFf => .tickPcpwmFf
  | .ctc => .tickCtc
  | .fastpwmFf => .tickFastpwmFf
  | .reserved4 => .tickReserved4
  | .pcpwmOcra => .tickPcpwmOcra
  | .reserved6 => .tickReserved6
  | .fastpwmOcra => .tickFastpwmOcra

/-- ADVANCE under a clock select (30_encoding.md R76). -/
def clockOf : ClockSelect → Nat → Instr
  | .stop, n => .clkStop n
  | .div1, n => .clkDiv1 n
  | .div8, n => .clkDiv8 n
  | .div64, n => .clkDiv64 n
  | .div256, n => .clkDiv256 n
  | .div1024, n => .clkDiv1024 n
  | .ext6, n => .clkExt6 n
  | .ext7, n => .clkExt7 n

/-- The pin logic of a pin under a mode and a COM value (30_encoding.md R77 to R79, R91). -/
def pinLogicOf : Pin → Mode → Com → Byte → Instr
  | .a, .normal, .com0, _ => .pinAWgm0Com0
  | .a, .normal, .com1, _ => .pinAWgm0Com1
  | .a, .normal, .com2, _ => .pinAWgm0Com2
  | .a, .normal, .com3, _ => .pinAWgm0Com3
  | .b, .normal, .com0, _ => .pinBWgm0Com0
  | .b, .normal, .com1, _ => .pinBWgm0Com1
  | .b, .normal, .com2, _ => .pinBWgm0Com2
  | .b, .normal, .com3, _ => .pinBWgm0Com3
  | .a, .pcpwmFf, .com0, c0 => .pinAWgm1Com0 c0
  | .a, .pcpwmFf, .com1, c0 => .pinAWgm1Com1 c0
  | .a, .pcpwmFf, .com2, c0 => .pinAWgm1Com2 c0
  | .a, .pcpwmFf, .com3, c0 => .pinAWgm1Com3 c0
  | .b, .pcpwmFf, .com0, c0 => .pinBWgm1Com0 c0
  | .b, .pcpwmFf, .com1, c0 => .pinBWgm1Com1 c0
  | .b, .pcpwmFf, .com2, c0 => .pinBWgm1Com2 c0
  | .b, .pcpwmFf, .com3, c0 => .pinBWgm1Com3 c0
  | .a, .ctc, .com0, _ => .pinAWgm2Com0
  | .a, .ctc, .com1, _ => .pinAWgm2Com1
  | .a, .ctc, .com2, _ => .pinAWgm2Com2
  | .a, .ctc, .com3, _ => .pinAWgm2Com3
  | .b, .ctc, .com0, _ => .pinBWgm2Com0
  | .b, .ctc, .com1, _ => .pinBWgm2Com1
  | .b, .ctc, .com2, _ => .pinBWgm2Com2
  | .b, .ctc, .com3, _ => .pinBWgm2Com3
  | .a, .fastpwmFf, .com0, c0 => .pinAWgm3Com0 c0
  | .a, .fastpwmFf, .com1, c0 => .pinAWgm3Com1 c0
  | .a, .fastpwmFf, .com2, c0 => .pinAWgm3Com2 c0
  | .a, .fastpwmFf, .com3, c0 => .pinAWgm3Com3 c0
  | .b, .fastpwmFf, .com0, c0 => .pinBWgm3Com0 c0
  | .b, .fastpwmFf, .com1, c0 => .pinBWgm3Com1 c0
  | .b, .fastpwmFf, .com2, c0 => .pinBWgm3Com2 c0
  | .b, .fastpwmFf, .com3, c0 => .pinBWgm3Com3 c0
  | .a, .reserved4, .com0, _ => .pinAWgm4Com0
  | .a, .reserved4, .com1, _ => .pinAWgm4Com1
  | .a, .reserved4, .com2, _ => .pinAWgm4Com2
  | .a, .reserved4, .com3, _ => .pinAWgm4Com3
  | .b, .reserved4, .com0, _ => .pinBWgm4Com0
  | .b, .reserved4, .com1, _ => .pinBWgm4Com1
  | .b, .reserved4, .com2, _ => .pinBWgm4Com2
  | .b, .reserved4, .com3, _ => .pinBWgm4Com3
  | .a, .pcpwmOcra, .com0, c0 => .pinAWgm5Com0 c0
  | .a, .pcpwmOcra, .com1, c0 => .pinAWgm5Com1 c0
  | .a, .pcpwmOcra, .com2, c0 => .pinAWgm5Com2 c0
  | .a, .pcpwmOcra, .com3, c0 => .pinAWgm5Com3 c0
  | .b, .pcpwmOcra, .com0, c0 => .pinBWgm5Com0 c0
  | .b, .pcpwmOcra, .com1, c0 => .pinBWgm5Com1 c0
  | .b, .pcpwmOcra, .com2, c0 => .pinBWgm5Com2 c0
  | .b, .pcpwmOcra, .com3, c0 => .pinBWgm5Com3 c0
  | .a, .reserved6, .com0, _ => .pinAWgm6Com0
  | .a, .reserved6, .com1, _ => .pinAWgm6Com1
  | .a, .reserved6, .com2, _ => .pinAWgm6Com2
  | .a, .reserved6, .com3, _ => .pinAWgm6Com3
  | .b, .reserved6, .com0, _ => .pinBWgm6Com0
  | .b, .reserved6, .com1, _ => .pinBWgm6Com1
  | .b, .reserved6, .com2, _ => .pinBWgm6Com2
  | .b, .reserved6, .com3, _ => .pinBWgm6Com3
  | .a, .fastpwmOcra, .com0, c0 => .pinAWgm7Com0 c0
  | .a, .fastpwmOcra, .com1, c0 => .pinAWgm7Com1 c0
  | .a, .fastpwmOcra, .com2, c0 => .pinAWgm7Com2 c0
  | .a, .fastpwmOcra, .com3, c0 => .pinAWgm7Com3 c0
  | .b, .fastpwmOcra, .com0, c0 => .pinBWgm7Com0 c0
  | .b, .fastpwmOcra, .com1, c0 => .pinBWgm7Com1 c0
  | .b, .fastpwmOcra, .com2, c0 => .pinBWgm7Com2 c0
  | .b, .fastpwmOcra, .com3, c0 => .pinBWgm7Com3 c0

/-- The dispatcher's case for a selected source (30_encoding.md R82). -/
def dispatchOf : Option Source → Instr
  | some .ovf => .dispatchOvf
  | some .compa => .dispatchCompa
  | some .compb => .dispatchCompb
  | none => .dispatchNone

/-! ### The decoders -/

/-- The host command word (30_encoding.md R88): `op = w[15:12]`, `arg = w[11:8]`, `data = w[7:0]`; `n` and
`sink` stand beside it (R87). Any other word is no command. The data byte of a read is ignored. -/
def decodeHcw (w : Word16) (n sink : Nat) : Option Instr :=
  let op : BitVec 4 := w.extractLsb' 12 4
  let arg : BitVec 4 := w.extractLsb' 8 4
  let data : Byte := w.extractLsb' 0 8
  if op = 0 then (portOfIndex arg).map readOf
  else if op = 1 then (portOfIndex arg).map (fun p => writeOf p data)
  else if op = 2 then if arg = 0 ∧ data = 0 then some (.advance n) else none
  else if op = 3 then
    if arg.extractLsb' 2 2 = 0 ∧ data = 0 then some (.foc (arg.getLsbD 0) (arg.getLsbD 1)) else none
  else if op = 4 then
    if arg.extractLsb' 1 3 = 0 ∧ data = 0 then some (.attachSink (pinOfBit (arg.getLsbD 0)) sink)
    else none
  else if op = 5 then if arg = 0 ∧ data = 0 then some .reset else none
  else none

/-- The host command a command record stands for, if any. -/
def HostCommand.decode (c : HostCommand) : Option Instr := decodeHcw c.word c.ticks c.sink

/-- The tick selected by the control word (30_encoding.md R75). -/
def decodeWgm (w : Word16) : Instr := tickOf (modeOfBits (wgmField w))

/-- The ADVANCE case selected by the control word (30_encoding.md R76). -/
def decodeCs (w : Word16) (n : Nat) : Instr := clockOf (clockOfBits (csField w)) n

/-- The pin logic selected by the control word for one pin (30_encoding.md R77 to R79, R91). -/
def decodePin (X : Pin) (w : Word16) (c0 : Byte) : Instr :=
  pinLogicOf X (modeOfBits (wgmField w)) (comOfBits (comField X w)) c0

/-- The fixed-priority selector over `P = (interruptFlags & interruptMask)[2:0]`, lowest bit first
(30_encoding.md R82). -/
def irqSelect (p : BitVec 3) : Option Source :=
  if p.getLsbD 0 then some .ovf
  else if p.getLsbD 1 then some .compa
  else if p.getLsbD 2 then some .compb
  else none

/-- The dispatcher case selected by `P` (30_encoding.md R82). -/
def decodeIrq3 (p : BitVec 3) : Instr := dispatchOf (irqSelect p)

/-- The instruction an encoded object of a given format stands for (30_encoding.md R92), total: `none` is
a refusal. An interrupt selector has three bits. -/
def decode (f : Format) (w : Word16) (b : Beside) : Option Instr :=
  match f with
  | .hcw => decodeHcw w b.ticks b.sink
  | .wgm => some (decodeWgm w)
  | .cs => some (decodeCs w b.ticks)
  | .pinA => some (decodePin .a w b.c0)
  | .pinB => some (decodePin .b w b.c0)
  | .irq3 => if w.extractLsb' 3 13 = 0 then some (decodeIrq3 (w.extractLsb' 0 3)) else none

/-- What the machine's command decoder reads from a table word (log 10): host command words are 16
bits wide (30_encoding.md R88), `n` and the sink reference beside it are 0, and nothing else is ever
fetched. The internal rows have no command word: the machine selects them with `decodeWgm`,
`decodeCs`, `decodePin` and `decodeIrq3` from its own registers. -/
def decodeTableWord (nbits w : Nat) : Option Instr :=
  if nbits = 16 ∧ w < 2 ^ 16 then decodeHcw (BitVec.ofNat 16 w) 0 0 else none

/-! ### The encoder -/

/-- An encoded object: its format, its word and the values beside the word. -/
structure Encoded where
  format : Format
  word : Word16
  beside : Beside := {}
deriving DecidableEq, Repr

/-- The word `op ∥ arg ∥ data` of 30_encoding.md R88, with op and arg given as one byte. -/
def hcwWord (head data : Byte) : Word16 := head ++ data

/-- A host command as an encoded object. -/
def hcw (head data : Byte) (b : Beside := {}) : Encoded := ⟨.hcw, hcwWord head data, b⟩

/-- The encoding of every row, from the match column of spec/opcode_table.json; bits that the table
leaves open are 0 (log 16). -/
def encode : Instr → Encoded
  | .rdCtrla => hcw 0x00 0
  | .wrCtrla v => hcw 0x10 v
  | .rdCtrlb => hcw 0x01 0
  | .wrCtrlb v => hcw 0x11 v
  | .rdCount => hcw 0x02 0
  | .wrCount v => hcw 0x12 v
  | .rdCmpa => hcw 0x03 0
  | .wrCmpa v => hcw 0x13 v
  | .rdCmpb => hcw 0x04 0
  | .wrCmpb v => hcw 0x14 v
  | .rdMask => hcw 0x05 0
  | .wrMask v => hcw 0x15 v
  | .rdFlags => hcw 0x06 0
  | .wrFlags v => hcw 0x16 v
  | .advance n => hcw 0x20 0 ⟨n, 0, 0⟩
  | .foc a b => hcw (0x30 ||| (if a then 1 else 0) ||| (if b then 2 else 0)) 0
  | .attachSink pin sink => hcw (match pin with | .a => 0x40 | .b => 0x41) 0 ⟨0, sink, 0⟩
  | .reset => hcw 0x50 0
  | .tickNormal => ⟨.wgm, 0x0000, {}⟩
  | .tickPcpwmFf => ⟨.wgm, 0x0001, {}⟩
  | .tickCtc => ⟨.wgm, 0x0002, {}⟩
  | .tickFastpwmFf => ⟨.wgm, 0x0003, {}⟩
  | .tickReserved4 => ⟨.wgm, 0x0800, {}⟩
  | .tickPcpwmOcra => ⟨.wgm, 0x0801, {}⟩
  | .tickReserved6 => ⟨.wgm, 0x0802, {}⟩
  | .tickFastpwmOcra => ⟨.wgm, 0x0803, {}⟩
  | .clkStop n => ⟨.cs, 0x0000, ⟨n, 0, 0⟩⟩
  | .clkDiv1 n => ⟨.cs, 0x0100, ⟨n, 0, 0⟩⟩
  | .clkDiv8 n => ⟨.cs, 0x0200, ⟨n, 0, 0⟩⟩
  | .clkDiv64 n => ⟨.cs, 0x0300, ⟨n, 0, 0⟩⟩
  | .clkDiv256 n => ⟨.cs, 0x0400, ⟨n, 0, 0⟩⟩
  | .clkDiv1024 n => ⟨.cs, 0x0500, ⟨n, 0, 0⟩⟩
  | .clkExt6 n => ⟨.cs, 0x0600, ⟨n, 0, 0⟩⟩
  | .clkExt7 n => ⟨.cs, 0x0700, ⟨n, 0, 0⟩⟩
  | .pinAWgm0Com0 => ⟨.pinA, 0x0000, {}⟩
  | .pinAWgm0Com1 => ⟨.pinA, 0x0040, {}⟩
  | .pinAWgm0Com2 => ⟨.pinA, 0x0080, {}⟩
  | .pinAWgm0Com3 => ⟨.pinA, 0x00C0, {}⟩
  | .pinBWgm0Com0 => ⟨.pinB, 0x0000, {}⟩
  | .pinBWgm0Com1 => ⟨.pinB, 0x0010, {}⟩
  | .pinBWgm0Com2 => ⟨.pinB, 0x0020, {}⟩
  | .pinBWgm0Com3 => ⟨.pinB, 0x0030, {}⟩
  | .pinAWgm1Com0 c0 => ⟨.pinA, 0x0001, ⟨0, 0, c0⟩⟩
  | .pinAWgm1Com1 c0 => ⟨.pinA, 0x0041, ⟨0, 0, c0⟩⟩
  | .pinAWgm1Com2 c0 => ⟨.pinA, 0x0081, ⟨0, 0, c0⟩⟩
  | .pinAWgm1Com3 c0 => ⟨.pinA, 0x00C1, ⟨0, 0, c0⟩⟩
  | .pinBWgm1Com0 c0 => ⟨.pinB, 0x0001, ⟨0, 0, c0⟩⟩
  | .pinBWgm1Com1 c0 => ⟨.pinB, 0x0011, ⟨0, 0, c0⟩⟩
  | .pinBWgm1Com2 c0 => ⟨.pinB, 0x0021, ⟨0, 0, c0⟩⟩
  | .pinBWgm1Com3 c0 => ⟨.pinB, 0x0031, ⟨0, 0, c0⟩⟩
  | .pinAWgm2Com0 => ⟨.pinA, 0x0002, {}⟩
  | .pinAWgm2Com1 => ⟨.pinA, 0x0042, {}⟩
  | .pinAWgm2Com2 => ⟨.pinA, 0x0082, {}⟩
  | .pinAWgm2Com3 => ⟨.pinA, 0x00C2, {}⟩
  | .pinBWgm2Com0 => ⟨.pinB, 0x0002, {}⟩
  | .pinBWgm2Com1 => ⟨.pinB, 0x0012, {}⟩
  | .pinBWgm2Com2 => ⟨.pinB, 0x0022, {}⟩
  | .pinBWgm2Com3 => ⟨.pinB, 0x0032, {}⟩
  | .pinAWgm3Com0 c0 => ⟨.pinA, 0x0003, ⟨0, 0, c0⟩⟩
  | .pinAWgm3Com1 c0 => ⟨.pinA, 0x0043, ⟨0, 0, c0⟩⟩
  | .pinAWgm3Com2 c0 => ⟨.pinA, 0x0083, ⟨0, 0, c0⟩⟩
  | .pinAWgm3Com3 c0 => ⟨.pinA, 0x00C3, ⟨0, 0, c0⟩⟩
  | .pinBWgm3Com0 c0 => ⟨.pinB, 0x0003, ⟨0, 0, c0⟩⟩
  | .pinBWgm3Com1 c0 => ⟨.pinB, 0x0013, ⟨0, 0, c0⟩⟩
  | .pinBWgm3Com2 c0 => ⟨.pinB, 0x0023, ⟨0, 0, c0⟩⟩
  | .pinBWgm3Com3 c0 => ⟨.pinB, 0x0033, ⟨0, 0, c0⟩⟩
  | .pinAWgm4Com0 => ⟨.pinA, 0x0800, {}⟩
  | .pinAWgm4Com1 => ⟨.pinA, 0x0840, {}⟩
  | .pinAWgm4Com2 => ⟨.pinA, 0x0880, {}⟩
  | .pinAWgm4Com3 => ⟨.pinA, 0x08C0, {}⟩
  | .pinBWgm4Com0 => ⟨.pinB, 0x0800, {}⟩
  | .pinBWgm4Com1 => ⟨.pinB, 0x0810, {}⟩
  | .pinBWgm4Com2 => ⟨.pinB, 0x0820, {}⟩
  | .pinBWgm4Com3 => ⟨.pinB, 0x0830, {}⟩
  | .pinAWgm5Com0 c0 => ⟨.pinA, 0x0801, ⟨0, 0, c0⟩⟩
  | .pinAWgm5Com1 c0 => ⟨.pinA, 0x0841, ⟨0, 0, c0⟩⟩
  | .pinAWgm5Com2 c0 => ⟨.pinA, 0x0881, ⟨0, 0, c0⟩⟩
  | .pinAWgm5Com3 c0 => ⟨.pinA, 0x08C1, ⟨0, 0, c0⟩⟩
  | .pinBWgm5Com0 c0 => ⟨.pinB, 0x0801, ⟨0, 0, c0⟩⟩
  | .pinBWgm5Com1 c0 => ⟨.pinB, 0x0811, ⟨0, 0, c0⟩⟩
  | .pinBWgm5Com2 c0 => ⟨.pinB, 0x0821, ⟨0, 0, c0⟩⟩
  | .pinBWgm5Com3 c0 => ⟨.pinB, 0x0831, ⟨0, 0, c0⟩⟩
  | .pinAWgm6Com0 => ⟨.pinA, 0x0802, {}⟩
  | .pinAWgm6Com1 => ⟨.pinA, 0x0842, {}⟩
  | .pinAWgm6Com2 => ⟨.pinA, 0x0882, {}⟩
  | .pinAWgm6Com3 => ⟨.pinA, 0x08C2, {}⟩
  | .pinBWgm6Com0 => ⟨.pinB, 0x0802, {}⟩
  | .pinBWgm6Com1 => ⟨.pinB, 0x0812, {}⟩
  | .pinBWgm6Com2 => ⟨.pinB, 0x0822, {}⟩
  | .pinBWgm6Com3 => ⟨.pinB, 0x0832, {}⟩
  | .pinAWgm7Com0 c0 => ⟨.pinA, 0x0803, ⟨0, 0, c0⟩⟩
  | .pinAWgm7Com1 c0 => ⟨.pinA, 0x0843, ⟨0, 0, c0⟩⟩
  | .pinAWgm7Com2 c0 => ⟨.pinA, 0x0883, ⟨0, 0, c0⟩⟩
  | .pinAWgm7Com3 c0 => ⟨.pinA, 0x08C3, ⟨0, 0, c0⟩⟩
  | .pinBWgm7Com0 c0 => ⟨.pinB, 0x0803, ⟨0, 0, c0⟩⟩
  | .pinBWgm7Com1 c0 => ⟨.pinB, 0x0813, ⟨0, 0, c0⟩⟩
  | .pinBWgm7Com2 c0 => ⟨.pinB, 0x0823, ⟨0, 0, c0⟩⟩
  | .pinBWgm7Com3 c0 => ⟨.pinB, 0x0833, ⟨0, 0, c0⟩⟩
  | .dispatchOvf => ⟨.irq3, 0x0001, {}⟩
  | .dispatchCompa => ⟨.irq3, 0x0002, {}⟩
  | .dispatchCompb => ⟨.irq3, 0x0004, {}⟩
  | .dispatchNone => ⟨.irq3, 0x0000, {}⟩

/-- The host command record of an operation the host may issue (30_encoding.md R87, R88). -/
def Instr.toCommand (i : Instr) : Option HostCommand :=
  if i.isCommand then
    some ⟨(encode i).word, (encode i).beside.ticks, (encode i).beside.sink⟩
  else none

/-! ### Pseudo-instructions -/

/-- The fixed expansions of 30_encoding.md R90. -/
def Pseudo.expand : Pseudo → List Instr
  | .setMode w ca cb cs =>
      [ .wrCtrla (BitVec.ofNat 8 (ca <<< 6 ||| cb <<< 4 ||| w &&& 3)),
        .wrCtrlb (BitVec.ofNat 8 ((w >>> 2) <<< 3 ||| cs)) ]
  | .clrf m => [ .wrFlags (BitVec.ofNat 8 m) ]

end Sys2Proof
end

