-- ==== Sys2Proof/Machine/State.lean ====
section
/-! DEFINITION. The machine's state as plain data: the record `T` of 10_state.md R20, and beside it the
inputs, parameters and outputs of the block (00_scope.md R7, R9; 10_state.md R36). -/

namespace Sys2Proof.Machine

/-- An output event of a host command (00_scope.md R9). -/
inductive Event where
  /-- `SinkCall(pin, level)`: the level of a pin with a bound sink changed (41_pin_driver.md R120). -/
  | sinkCall (pin : Pin) (level : Bool)
  /-- `IrqRequest(v)`: the dispatcher granted source `v` (44_interrupt_dispatch.md R186). -/
  | irqRequest (v : Source)
  /-- `Diag(NoVector, v)`: the host has no handler for `v` (44_interrupt_dispatch.md R187). -/
  | diagNoVector (v : Source)
deriving DecidableEq, Repr

/-- The result of a host command (00_scope.md R9). -/
inductive Result where
  /-- The command has no result (WR, FOC, ATTACHSINK, RESET). -/
  | noResult
  /-- The byte read by RD (40_register_ports.md R100). -/
  | data (v : Byte)
  /-- `Ok` of ADVANCE (43_prescaler.md R171). -/
  | ok
  /-- `ConfigError(cs)` of ADVANCE (43_prescaler.md R174, 60_exceptions.md R200). -/
  | configError (cs : BitVec 3)
deriving DecidableEq, Repr

/-- The machine. The first sixteen fields are the record `T` of 10_state.md R20, under its own names
(a pin index is a suffix A or B); the others are the model's own (log 1, 5, 6, 8). -/
@[ext]
structure State where
  /-- Control register A (10_state.md R22). -/
  controlA : Byte
  /-- Control register B (10_state.md R23). -/
  controlB : Byte
  /-- The live counter (10_state.md R24). -/
  count : Byte
  /-- The active compare registers (10_state.md R25). -/
  compareA : Byte
  compareB : Byte
  /-- The staged compare registers (10_state.md R26). -/
  compareBufferA : Byte
  compareBufferB : Byte
  /-- The interrupt enable bits (10_state.md R27). -/
  interruptMask : Byte
  /-- The pending-event bits (10_state.md R28). -/
  interruptFlags : Byte
  /-- The count direction (10_state.md R29). -/
  countingDownwards : Bool
  /-- The levels of the output-compare pins, `true` is high (10_state.md R30). -/
  outputPinStateA : Bool
  outputPinStateB : Bool
  /-- The bound sinks; absence is the spec's own state (10_state.md R31). A reference is a number that
  names the consumer (log 11). -/
  outputPinSinkA : Option Nat
  outputPinSinkB : Option Nat
  /-- Compare-match detection of the next tick is suppressed (10_state.md R32). -/
  inhibitNextCompareMatch : Bool
  /-- Host ticks not yet consumed by the prescaler (10_state.md R33). -/
  excessTicks : Nat
  /-- The Boolean parameters of 00_scope.md R7 (log 6). No operation writes them. -/
  params : Params
  /-- Input: the host commands not yet begun, the next first (log 1). -/
  pending : List HostCommand
  /-- Input: the host's answers for the next ticks, the next tick's first (log 5). -/
  answers : List HostAnswer
  /-- How often the host has been asked; the free value is applied to it when `answers` is empty
  (log 5). -/
  asked : Nat
  /-- Output: the events of the current host command, in order (00_scope.md R9, R10). -/
  events : List Event
  /-- Output: the result of the current host command (00_scope.md R9). -/
  result : Result
deriving DecidableEq, Repr

/-- The machine right after reset. The fields of `T` are those of the table of 10_state.md R35 (the spec's
decision D6); the parameters are at their defaults (00_scope.md R7); the model's own fields are empty
(DESIGN CHOICE, log 1, 5, 8). -/
def State.reset : State where
  controlA := 0x00
  controlB := 0x00
  count := 0x00
  compareA := 0x00
  compareB := 0x00
  compareBufferA := 0x00
  compareBufferB := 0x00
  interruptMask := 0x00
  interruptFlags := 0x00
  countingDownwards := false
  outputPinStateA := false
  outputPinStateB := false
  outputPinSinkA := none
  outputPinSinkB := none
  inhibitNextCompareMatch := false
  excessTicks := 0
  params := {}
  pending := []
  answers := []
  asked := 0
  events := []
  result := .noResult

/-- The ways the machine stops with a fault: none. 60_exceptions.md R202: "No other error conditions exist
inside the core", and the one error there is, ConfigError, is the result of a command and leaves the
block usable (R200, R218; log 7), so it is a next state. Nobody raises a fault (safe). -/
inductive Fault where
deriving DecidableEq, Repr

/-- Why a step has no meaning. -/
inductive Refusal where
  /-- Raised by an arm of `exec` whose instruction has no meaning yet: no arm does (safe). -/
  | notModelled (mnemonic : String)
  /-- Raised by `step` alone, for a pending word that is none of the command words of 30_encoding.md R88
  ("not a command; a model's decoder refuses it", R83; 93 U7). Safe: the model says nothing of such a
  run (log 3). -/
  | notACommand (word : Word16)
deriving DecidableEq, Repr

end Sys2Proof.Machine
end

