-- ==== Sys2Proof/Machine/Operands.lean ====
section
/-! DEFINITION. What an operation reads: the decoded fields of the live control registers, the
registers behind the ports, the per-pin fields, the divider, the host's answer. -/

namespace Sys2Proof.Machine

/-- `CTRL16 = controlB ∥ controlA` (30_encoding.md R73), decoded afresh at every use (20_memory.md R61). -/
def State.ctrl16 (s : State) : Word16 := s.controlB ++ s.controlA

/-- `WGM(T)` (30_encoding.md R74, R75). -/
def State.mode (s : State) : Mode := modeOfBits (wgmField s.ctrl16)

/-- `CS(T)` (30_encoding.md R76). -/
def State.clock (s : State) : ClockSelect := clockOfBits (csField s.ctrl16)

/-- `COM(T, X)` (30_encoding.md R81). -/
def State.com (s : State) (X : Pin) : Com := comOfBits (comField X s.ctrl16)

/-- `TOGEN(T)` (30_encoding.md R81). -/
def State.togen (s : State) : Bool := togenField s.ctrl16

/-- The active compare register of a pin: `compareX(T)` (42_waveform_tick.md R144). -/
def State.compareOf (s : State) : Pin → Byte
  | .a => s.compareA
  | .b => s.compareB

/-- `T.outputPinState[X]` (10_state.md R30). -/
def State.pinLevel (s : State) : Pin → Bool
  | .a => s.outputPinStateA
  | .b => s.outputPinStateB

/-- `T.outputPinSink[X]` (10_state.md R31). -/
def State.pinSink (s : State) : Pin → Option Nat
  | .a => s.outputPinSinkA
  | .b => s.outputPinSinkB

/-- Mode class: the WGM values that are not PWM, the reserved ones included (30_encoding.md R75). -/
def isPwm : Mode → Bool
  | .normal | .ctc | .reserved4 | .reserved6 => false
  | .pcpwmFf | .fastpwmFf | .pcpwmOcra | .fastpwmOcra => true

/-- `PortRead(p)`: the field read by RD (20_memory.md R51). The compare ports read the buffers. -/
def portRead (p : Port) (s : State) : Byte :=
  match p with
  | .ctrla => s.controlA
  | .ctrlb => s.controlB
  | .count => s.count
  | .cmpa => s.compareBufferA
  | .cmpb => s.compareBufferB
  | .mask => s.interruptMask
  | .flags => s.interruptFlags

/-- The host's answer in the next tick (00_scope.md R9): the next listed one, else the free value (log 5). -/
def State.hostAnswer (s : State) : HostAnswer := s.answers.headD (Config.freeAnswer s.asked)

end Sys2Proof.Machine
end

