-- ==== Sys2Proof/Machine/Flags.lean ====
section
/-! DEFINITION. The interrupt flags: their bits, what sets one and what clears one. -/

namespace Sys2Proof.Machine

/-- The flag and mask bit of a source: OVF = 0x01, CMPA = 0x02, CMPB = 0x04 (30_encoding.md R80). -/
def flagBit : Source → Byte
  | .ovf => 0x01
  | .compa => 0x02
  | .compb => 0x04

/-- Set the flag of a source if a condition holds; a flag already set stays set (10_state.md R28). -/
def raiseIf (c : Bool) (v : Source) (s : State) : State :=
  { s with interruptFlags := if c then s.interruptFlags ||| flagBit v else s.interruptFlags }

/-- Clear every flag whose position holds 1 in `m`: `interruptFlags & ~m` (40_register_ports.md R114,
44_interrupt_dispatch.md R186). -/
def clearFlags (m : Byte) (s : State) : State :=
  { s with interruptFlags := s.interruptFlags &&& ~~~m }

/-- Step 1 of a tick, compare-match detection (42_waveform_tick.md R131). -/
def detect (c0 : Byte) (s : State) : State :=
  if s.inhibitNextCompareMatch then { s with inhibitNextCompareMatch := false }
  else raiseIf (c0 == s.compareB) .compb (raiseIf (c0 == s.compareA) .compa s)

/-- `P = (interruptFlags & interruptMask)[2:0]` (30_encoding.md R82). -/
def State.irqBits (s : State) : BitVec 3 := (s.interruptFlags &&& s.interruptMask).extractLsb' 0 3

end Sys2Proof.Machine
end

