-- ==== Sys2Proof/Machine/Ops.lean ====
section
/-! DEFINITION. The operations the meanings share: port writes, results and events, the pin driver and
the pin logic, the steps of a tick, interrupt entry, the configuration error. -/

namespace Sys2Proof.Machine

/-! ### Results, events and port writes -/

/-- `emit E` (00_scope.md R10): append an event to the list of the current host command. -/
def emit (e : Event) (s : State) : State := { s with events := s.events ++ [e] }

/-- The result of the current host command (00_scope.md R9). -/
def answer (r : Result) (s : State) : State := { s with result := r }

/-- `PortWrite(p, v)` (20_memory.md R51, R56; 40_register_ports.md R102 to R114): the compare ports write the
buffers, FLAGS is write-one-to-clear, COUNT sets the inhibit flag under its parameter. -/
def portWrite (p : Port) (v : Byte) (s : State) : State :=
  match p with
  | .ctrla => { s with controlA := v }
  | .ctrlb => { s with controlB := v }
  | .count =>
      { s with
        count := v
        inhibitNextCompareMatch := s.params.inhibitOnCountWrite || s.inhibitNextCompareMatch }
  | .cmpa => { s with compareBufferA := v }
  | .cmpb => { s with compareBufferB := v }
  | .mask => { s with interruptMask := v }
  | .flags => clearFlags v s

/-! ### Taking the one exception of the block -/

/-- `raise ConfigError(cs)` (43_prescaler.md R174, 60_exceptions.md R200, R218): the error is the result of the
current command; no field of `T` changes and the block stays usable, so it is a next state
(log 7). There is no return from it (R210). -/
def raiseConfigError (cs : BitVec 3) (s : State) : State := answer (.configError cs) s

/-! ### The pin driver (41_pin_driver.md) -/

/-- Write the level of a pin. -/
def writeLevel (X : Pin) (l : Bool) (s : State) : State :=
  match X with
  | .a => { s with outputPinStateA := l }
  | .b => { s with outputPinStateB := l }

/-- `Notify(pin, level)` (41_pin_driver.md R120): a sink call if a sink is bound. -/
def notify (X : Pin) (l : Bool) (s : State) : State :=
  if (s.pinSink X).isSome then emit (.sinkCall X l) s else s

/-- SETHIGH (41_pin_driver.md R121). -/
def setHigh (X : Pin) (s : State) : State :=
  if s.pinLevel X = false then notify X true (writeLevel X true s) else s

/-- SETLOW (41_pin_driver.md R122). -/
def setLow (X : Pin) (s : State) : State :=
  if s.pinLevel X = true then notify X false (writeLevel X false s) else s

/-- TOGGLE (41_pin_driver.md R123): always notifies, with the new level. -/
def toggle (X : Pin) (s : State) : State :=
  notify X (!s.pinLevel X) (writeLevel X (!s.pinLevel X) s)

/-- Bind a sink to a pin, replacing an earlier one (41_pin_driver.md R124). -/
def bindSink (X : Pin) (sink : Nat) (s : State) : State :=
  match X with
  | .a => { s with outputPinSinkA := some sink }
  | .b => { s with outputPinSinkB := some sink }

/-! ### The pin logic -/

/-- Non-PWM pin action for a COM value (42_waveform_tick.md R134, 30_encoding.md R77). -/
def nonPwmAction (X : Pin) (m : Com) (s : State) : State :=
  match m with
  | .com0 => s
  | .com1 => toggle X s
  | .com2 => setLow X s
  | .com3 => setHigh X s

/-- The BOTTOM action of fast PWM (42_waveform_tick.md R144, first case). -/
def fastBottomAction (X : Pin) (m : Com) (s : State) : State :=
  match m with
  | .com2 => setHigh X s
  | .com3 => setLow X s
  | .com0 => s
  | .com1 => s

/-- The COM = 1 action of the PWM classes: only pin A toggles, and only with TOGEN
(42_waveform_tick.md R144, R145). -/
def pwmToggle (X : Pin) (togen : Bool) (s : State) : State :=
  if X = .a ∧ togen = true then toggle .a s else s

/-- The compare-match action of fast PWM (42_waveform_tick.md R144, second case). -/
def fastMatchAction (X : Pin) (m : Com) (togen : Bool) (s : State) : State :=
  match m with
  | .com2 => setLow X s
  | .com3 => setHigh X s
  | .com1 => pwmToggle X togen s
  | .com0 => s

/-- Fast PWM pin logic (42_waveform_tick.md R144): BOTTOM action, then match action, both tested on the
latched count `c0`. -/
def fastPinLogic (X : Pin) (m : Com) (togen : Bool) (c0 : Byte) (s : State) : State :=
  let s1 := if c0 = 0 then fastBottomAction X m s else s
  if c0 = s1.compareOf X then fastMatchAction X m togen s1 else s1

/-- The compare-match action of phase-correct PWM, by the direction just updated
(42_waveform_tick.md R145). -/
def phaseMatchAction (X : Pin) (m : Com) (togen : Bool) (s : State) : State :=
  match m with
  | .com2 => if s.countingDownwards then setHigh X s else setLow X s
  | .com3 => if s.countingDownwards then setLow X s else setHigh X s
  | .com1 => pwmToggle X togen s
  | .com0 => s

/-- Phase-correct PWM pin logic (42_waveform_tick.md R145). -/
def phasePinLogic (X : Pin) (m : Com) (togen : Bool) (c0 : Byte) (s : State) : State :=
  if c0 = s.compareOf X then phaseMatchAction X m togen s else s

/-! ### Step 2 of a tick: the mode handlers -/

/-- Buffer synchronisation, both registers together (42_waveform_tick.md R133). -/
def syncBuffers (s : State) : State :=
  { s with compareA := s.compareBufferA, compareB := s.compareBufferB }

/-- "Direction is always upward" (42_waveform_tick.md R135, R136, R138). -/
def countUpward (s : State) : State := { s with countingDownwards := false }

/-- Force the counter to 0xFF if a condition holds, so that step 3 yields 0 (42_waveform_tick.md R136,
R138). -/
def forceTopIf (c : Bool) (s : State) : State :=
  { s with count := if c then 0xFF else s.count }

/-- The non-PWM action of one pin at a compare match (42_waveform_tick.md R135, R136: "if T.compareX = c0"). -/
def nonPwmPin (X : Pin) (c0 : Byte) (s : State) : State :=
  if s.compareOf X = c0 then nonPwmAction X (s.com X) s else s

/-- `Tick_Normal` (42_waveform_tick.md R135). -/
def handleNormal (c0 : Byte) (s : State) : State :=
  nonPwmPin .b c0 (nonPwmPin .a c0 (raiseIf (c0 == 0xFF) .ovf (countUpward (syncBuffers s))))

/-- `Tick_CTC` (42_waveform_tick.md R136): the clear test reads compareA after the synchronisation. -/
def handleCtc (c0 : Byte) (s : State) : State :=
  let s1 := raiseIf (c0 == 0xFF) .ovf (countUpward (syncBuffers s))
  nonPwmPin .b c0 (nonPwmPin .a c0 (forceTopIf (c0 == s1.compareA) s1))

/-- `FastPwmPinAction(T, X, c0)` with the live COM and TOGEN fields (42_waveform_tick.md R144). -/
def fastPin (X : Pin) (c0 : Byte) (s : State) : State := fastPinLogic X (s.com X) s.togen c0 s

/-- `Tick_FastPWM` with the latched `top` (42_waveform_tick.md R138). -/
def handleFast (top c0 : Byte) (s : State) : State :=
  let s1 := countUpward (if c0 = 0 then syncBuffers s else s)
  fastPin .b c0 (fastPin .a c0 (raiseIf (c0 == top) .ovf (forceTopIf (c0 == top) s1)))

/-- `PcPwmPinAction(T, X, c0)` with the live COM and TOGEN fields (42_waveform_tick.md R145). -/
def phasePin (X : Pin) (c0 : Byte) (s : State) : State := phasePinLogic X (s.com X) s.togen c0 s

/-- The turn tests of phase-correct PWM, one if and else: at most one turn (42_waveform_tick.md R141). -/
def turn (top c0 : Byte) (s : State) : State :=
  if s.countingDownwards = false then
    if c0 = top then { s with countingDownwards := true } else s
  else
    if c0 = 0 then raiseIf true .ovf { s with countingDownwards := false } else s

/-- `Tick_PhaseCorrect` with the latched `top` (42_waveform_tick.md R141). -/
def handlePhase (top c0 : Byte) (s : State) : State :=
  phasePin .b c0 (phasePin .a c0 (turn top c0 (if c0 = top then syncBuffers s else s)))

/-- Step 2 of a tick (42_waveform_tick.md R132): TOP = compareA is latched before any synchronisation. -/
def handleMode (m : Mode) (c0 : Byte) (s : State) : State :=
  match m with
  | .normal | .reserved4 | .reserved6 => handleNormal c0 s
  | .ctc => handleCtc c0 s
  | .fastpwmFf => handleFast 0xFF c0 s
  | .fastpwmOcra => handleFast s.compareA c0 s
  | .pcpwmFf => handlePhase 0xFF c0 s
  | .pcpwmOcra => handlePhase s.compareA c0 s

/-! ### Steps 3 and 4 of a tick -/

/-- Step 3 (42_waveform_tick.md R146): +8 1 or -8 1 by the direction left by step 2. -/
def advanceCounter (s : State) : State :=
  { s with count := if s.countingDownwards then s.count - 1 else s.count + 1 }

/-- The host has been asked once more; its next listed answer is used up (log 5). -/
def takeAnswer (s : State) : State := { s with answers := s.answers.tail, asked := s.asked + 1 }

/-- `Grant(T, bit, v)` (44_interrupt_dispatch.md R186, R187; 60_exceptions.md R207): the block's whole half of
interrupt entry. It clears the one flag and requests the vector; a diagnostic follows if the host
has no handler. Nothing is saved and nothing is masked. -/
def grant (v : Source) (handled : Bool) (s : State) : State :=
  let s1 := emit (.irqRequest v) (clearFlags (flagBit v) s)
  if handled then s1 else emit (.diagNoVector v) s1

/-- One case of DISPATCH (44_interrupt_dispatch.md R185, R186): the host is asked once, and the selected source
is granted if interrupts are enabled. -/
def dispatchCase (sel : Option Source) (s : State) : State :=
  match sel with
  | none => takeAnswer s
  | some v =>
      if s.hostAnswer.intEnabled then grant v s.hostAnswer.handled (takeAnswer s) else takeAnswer s

/-- DISPATCH, step 4 of a tick (44_interrupt_dispatch.md R186, 42_waveform_tick.md R147): the case selected by `P`. -/
def dispatch (s : State) : State := dispatchCase (irqSelect s.irqBits) s

/-! ### The tick and the prescaler -/

/-- One peripheral tick with a given mode's handler (42_waveform_tick.md R130): `c0` is latched once. -/
def tickAs (m : Mode) (s : State) : State :=
  dispatch (advanceCounter (handleMode m s.count (detect s.count s)))

/-- TICK (42_waveform_tick.md R130, R132): the handler is the one WGM selects; step 1 writes no control
register, so the selector is the same before and after it. -/
def tick (s : State) : State := tickAs s.mode s

/-- `k` ticks, one after another (43_prescaler.md R172). -/
def ticks : Nat → State → State
  | 0, s => s
  | k + 1, s => ticks k (tick s)

/-- `AdvanceRunning(T, n, d)` (43_prescaler.md R172): `floor((excessTicks + n) / d)` ticks, and the rest is
carried. -/
def advanceRunning (d n : Nat) (s : State) : State :=
  answer .ok
    { ticks ((s.excessTicks + n) / d) s with excessTicks := (s.excessTicks + n) % d }

/-- `AdvanceStopped(T)` (43_prescaler.md R173). -/
def advanceStopped (s : State) : State := answer .ok { s with excessTicks := 0 }

/-- ADVANCE under a clock select (43_prescaler.md R170, R171, R174). -/
def advanceBy (c : ClockSelect) (n : Nat) (s : State) : State :=
  match c with
  | .stop => advanceStopped s
  | .div1 => advanceRunning 1 n s
  | .div8 => advanceRunning 8 n s
  | .div64 => advanceRunning 64 n s
  | .div256 => advanceRunning 256 n s
  | .div1024 => advanceRunning 1024 n s
  | .ext6 => raiseConfigError 6 s
  | .ext7 => raiseConfigError 7 s

/-! ### Forced output compare and reset -/

/-- FOC for one pin of the set (42_waveform_tick.md R149), gated by the equality test only under
`P_FOC_EQUALITY_GATED`. -/
def forcePin (X : Pin) (selected : Bool) (s : State) : State :=
  if selected = true ∧ (s.params.focEqualityGated = false ∨ s.compareOf X = s.count) then
    nonPwmAction X (s.com X) s
  else s

/-- FOC (42_waveform_tick.md R149): pin A then pin B, in the non-PWM modes only. -/
def forceCompare (a b : Bool) (s : State) : State :=
  if isPwm s.mode then s else forcePin .b b (forcePin .a a s)

/-- RESET (70_reset_and_hazards.md R230): every field of `T` takes its reset value; no event. The parameters
and the host's side (commands, answers) are not fields of `T` and stay. -/
def resetTimer (s : State) : State :=
  { State.reset with
    params := s.params
    pending := s.pending
    answers := s.answers
    asked := s.asked
    events := s.events
    result := s.result }

end Sys2Proof.Machine
end

