-- ==== Sys2Proof/Machine/Interrupts.lean ====
section
/-! DEFINITION. The four cases of DISPATCH (44_interrupt_dispatch.md R185, R186; 30_encoding.md R82; log 9). -/

namespace Sys2Proof.Machine

/-- DISPATCH.OVF (44_interrupt_dispatch.md R186). -/
def execDispatchOvf (s : State) : Host.Outcome State Fault Refusal :=
  .next (dispatchCase (some .ovf) s)

/-- DISPATCH.COMPA (44_interrupt_dispatch.md R186). -/
def execDispatchCompa (s : State) : Host.Outcome State Fault Refusal :=
  .next (dispatchCase (some .compa) s)

/-- DISPATCH.COMPB (44_interrupt_dispatch.md R186). -/
def execDispatchCompb (s : State) : Host.Outcome State Fault Refusal :=
  .next (dispatchCase (some .compb) s)

/-- DISPATCH.NONE (44_interrupt_dispatch.md R186). -/
def execDispatchNone (s : State) : Host.Outcome State Fault Refusal :=
  .next (dispatchCase none s)

end Sys2Proof.Machine
end

