-- ==== Sys2Proof/Machine/PinDriver.lean ====
section
/-! DEFINITION. The host command of the pin driver (41_pin_driver.md R124). -/

namespace Sys2Proof.Machine

/-- ATTACHSINK (41_pin_driver.md R124: no call with the current level, the other pin untouched). -/
def execAttachSink (pin : Pin) (sink : Nat) (s : State) : Host.Outcome State Fault Refusal :=
  .next (bindSink pin sink s)

end Sys2Proof.Machine
end

