-- ==== Sys2Proof/Machine/PinLogic.lean ====
section
/-! DEFINITION. The 64 rows of the pin logic (30_encoding.md R77 to R79, R91; 42_waveform_tick.md R134, R144,
R145; log 9). A non-PWM row is the action itself, whose match test is the caller's (R135, R136, R149); a
PWM row holds the tests on the latched count `c0`. TOGEN is WGM[2], so it is fixed by the row. -/

namespace Sys2Proof.Machine

/-- PINA.WGM0.COM0 (42_waveform_tick.md R134). -/
def execPinAWgm0Com0 (s : State) : Host.Outcome State Fault Refusal :=
  .next (nonPwmAction .a .com0 s)

/-- PINA.WGM0.COM1 (42_waveform_tick.md R134). -/
def execPinAWgm0Com1 (s : State) : Host.Outcome State Fault Refusal :=
  .next (nonPwmAction .a .com1 s)

/-- PINA.WGM0.COM2 (42_waveform_tick.md R134). -/
def execPinAWgm0Com2 (s : State) : Host.Outcome State Fault Refusal :=
  .next (nonPwmAction .a .com2 s)

/-- PINA.WGM0.COM3 (42_waveform_tick.md R134). -/
def execPinAWgm0Com3 (s : State) : Host.Outcome State Fault Refusal :=
  .next (nonPwmAction .a .com3 s)

/-- PINB.WGM0.COM0 (42_waveform_tick.md R134). -/
def execPinBWgm0Com0 (s : State) : Host.Outcome State Fault Refusal :=
  .next (nonPwmAction .b .com0 s)

/-- PINB.WGM0.COM1 (42_waveform_tick.md R134). -/
def execPinBWgm0Com1 (s : State) : Host.Outcome State Fault Refusal :=
  .next (nonPwmAction .b .com1 s)

/-- PINB.WGM0.COM2 (42_waveform_tick.md R134). -/
def execPinBWgm0Com2 (s : State) : Host.Outcome State Fault Refusal :=
  .next (nonPwmAction .b .com2 s)

/-- PINB.WGM0.COM3 (42_waveform_tick.md R134). -/
def execPinBWgm0Com3 (s : State) : Host.Outcome State Fault Refusal :=
  .next (nonPwmAction .b .com3 s)

/-- PINA.WGM1.COM0 (42_waveform_tick.md R145). -/
def execPinAWgm1Com0 (c0 : Byte) (s : State) : Host.Outcome State Fault Refusal :=
  .next (phasePinLogic .a .com0 false c0 s)

/-- PINA.WGM1.COM1 (42_waveform_tick.md R145). -/
def execPinAWgm1Com1 (c0 : Byte) (s : State) : Host.Outcome State Fault Refusal :=
  .next (phasePinLogic .a .com1 false c0 s)

/-- PINA.WGM1.COM2 (42_waveform_tick.md R145). -/
def execPinAWgm1Com2 (c0 : Byte) (s : State) : Host.Outcome State Fault Refusal :=
  .next (phasePinLogic .a .com2 false c0 s)

/-- PINA.WGM1.COM3 (42_waveform_tick.md R145). -/
def execPinAWgm1Com3 (c0 : Byte) (s : State) : Host.Outcome State Fault Refusal :=
  .next (phasePinLogic .a .com3 false c0 s)

/-- PINB.WGM1.COM0 (42_waveform_tick.md R145). -/
def execPinBWgm1Com0 (c0 : Byte) (s : State) : Host.Outcome State Fault Refusal :=
  .next (phasePinLogic .b .com0 false c0 s)

/-- PINB.WGM1.COM1 (42_waveform_tick.md R145). -/
def execPinBWgm1Com1 (c0 : Byte) (s : State) : Host.Outcome State Fault Refusal :=
  .next (phasePinLogic .b .com1 false c0 s)

/-- PINB.WGM1.COM2 (42_waveform_tick.md R145). -/
def execPinBWgm1Com2 (c0 : Byte) (s : State) : Host.Outcome State Fault Refusal :=
  .next (phasePinLogic .b .com2 false c0 s)

/-- PINB.WGM1.COM3 (42_waveform_tick.md R145). -/
def execPinBWgm1Com3 (c0 : Byte) (s : State) : Host.Outcome State Fault Refusal :=
  .next (phasePinLogic .b .com3 false c0 s)

/-- PINA.WGM2.COM0 (42_waveform_tick.md R134). -/
def execPinAWgm2Com0 (s : State) : Host.Outcome State Fault Refusal :=
  .next (nonPwmAction .a .com0 s)

/-- PINA.WGM2.COM1 (42_waveform_tick.md R134). -/
def execPinAWgm2Com1 (s : State) : Host.Outcome State Fault Refusal :=
  .next (nonPwmAction .a .com1 s)

/-- PINA.WGM2.COM2 (42_waveform_tick.md R134). -/
def execPinAWgm2Com2 (s : State) : Host.Outcome State Fault Refusal :=
  .next (nonPwmAction .a .com2 s)

/-- PINA.WGM2.COM3 (42_waveform_tick.md R134). -/
def execPinAWgm2Com3 (s : State) : Host.Outcome State Fault Refusal :=
  .next (nonPwmAction .a .com3 s)

/-- PINB.WGM2.COM0 (42_waveform_tick.md R134). -/
def execPinBWgm2Com0 (s : State) : Host.Outcome State Fault Refusal :=
  .next (nonPwmAction .b .com0 s)

/-- PINB.WGM2.COM1 (42_waveform_tick.md R134). -/
def execPinBWgm2Com1 (s : State) : Host.Outcome State Fault Refusal :=
  .next (nonPwmAction .b .com1 s)

/-- PINB.WGM2.COM2 (42_waveform_tick.md R134). -/
def execPinBWgm2Com2 (s : State) : Host.Outcome State Fault Refusal :=
  .next (nonPwmAction .b .com2 s)

/-- PINB.WGM2.COM3 (42_waveform_tick.md R134). -/
def execPinBWgm2Com3 (s : State) : Host.Outcome State Fault Refusal :=
  .next (nonPwmAction .b .com3 s)

/-- PINA.WGM3.COM0 (42_waveform_tick.md R144). -/
def execPinAWgm3Com0 (c0 : Byte) (s : State) : Host.Outcome State Fault Refusal :=
  .next (fastPinLogic .a .com0 false c0 s)

/-- PINA.WGM3.COM1 (42_waveform_tick.md R144). -/
def execPinAWgm3Com1 (c0 : Byte) (s : State) : Host.Outcome State Fault Refusal :=
  .next (fastPinLogic .a .com1 false c0 s)

/-- PINA.WGM3.COM2 (42_waveform_tick.md R144). -/
def execPinAWgm3Com2 (c0 : Byte) (s : State) : Host.Outcome State Fault Refusal :=
  .next (fastPinLogic .a .com2 false c0 s)

/-- PINA.WGM3.COM3 (42_waveform_tick.md R144). -/
def execPinAWgm3Com3 (c0 : Byte) (s : State) : Host.Outcome State Fault Refusal :=
  .next (fastPinLogic .a .com3 false c0 s)

/-- PINB.WGM3.COM0 (42_waveform_tick.md R144). -/
def execPinBWgm3Com0 (c0 : Byte) (s : State) : Host.Outcome State Fault Refusal :=
  .next (fastPinLogic .b .com0 false c0 s)

/-- PINB.WGM3.COM1 (42_waveform_tick.md R144). -/
def execPinBWgm3Com1 (c0 : Byte) (s : State) : Host.Outcome State Fault Refusal :=
  .next (fastPinLogic .b .com1 false c0 s)

/-- PINB.WGM3.COM2 (42_waveform_tick.md R144). -/
def execPinBWgm3Com2 (c0 : Byte) (s : State) : Host.Outcome State Fault Refusal :=
  .next (fastPinLogic .b .com2 false c0 s)

/-- PINB.WGM3.COM3 (42_waveform_tick.md R144). -/
def execPinBWgm3Com3 (c0 : Byte) (s : State) : Host.Outcome State Fault Refusal :=
  .next (fastPinLogic .b .com3 false c0 s)

/-- PINA.WGM4.COM0 (42_waveform_tick.md R134). -/
def execPinAWgm4Com0 (s : State) : Host.Outcome State Fault Refusal :=
  .next (nonPwmAction .a .com0 s)

/-- PINA.WGM4.COM1 (42_waveform_tick.md R134). -/
def execPinAWgm4Com1 (s : State) : Host.Outcome State Fault Refusal :=
  .next (nonPwmAction .a .com1 s)

/-- PINA.WGM4.COM2 (42_waveform_tick.md R134). -/
def execPinAWgm4Com2 (s : State) : Host.Outcome State Fault Refusal :=
  .next (nonPwmAction .a .com2 s)

/-- PINA.WGM4.COM3 (42_waveform_tick.md R134). -/
def execPinAWgm4Com3 (s : State) : Host.Outcome State Fault Refusal :=
  .next (nonPwmAction .a .com3 s)

/-- PINB.WGM4.COM0 (42_waveform_tick.md R134). -/
def execPinBWgm4Com0 (s : State) : Host.Outcome State Fault Refusal :=
  .next (nonPwmAction .b .com0 s)

/-- PINB.WGM4.COM1 (42_waveform_tick.md R134). -/
def execPinBWgm4Com1 (s : State) : Host.Outcome State Fault Refusal :=
  .next (nonPwmAction .b .com1 s)

/-- PINB.WGM4.COM2 (42_waveform_tick.md R134). -/
def execPinBWgm4Com2 (s : State) : Host.Outcome State Fault Refusal :=
  .next (nonPwmAction .b .com2 s)

/-- PINB.WGM4.COM3 (42_waveform_tick.md R134). -/
def execPinBWgm4Com3 (s : State) : Host.Outcome State Fault Refusal :=
  .next (nonPwmAction .b .com3 s)

/-- PINA.WGM5.COM0 (42_waveform_tick.md R145). -/
def execPinAWgm5Com0 (c0 : Byte) (s : State) : Host.Outcome State Fault Refusal :=
  .next (phasePinLogic .a .com0 true c0 s)

/-- PINA.WGM5.COM1 (42_waveform_tick.md R145). -/
def execPinAWgm5Com1 (c0 : Byte) (s : State) : Host.Outcome State Fault Refusal :=
  .next (phasePinLogic .a .com1 true c0 s)

/-- PINA.WGM5.COM2 (42_waveform_tick.md R145). -/
def execPinAWgm5Com2 (c0 : Byte) (s : State) : Host.Outcome State Fault Refusal :=
  .next (phasePinLogic .a .com2 true c0 s)

/-- PINA.WGM5.COM3 (42_waveform_tick.md R145). -/
def execPinAWgm5Com3 (c0 : Byte) (s : State) : Host.Outcome State Fault Refusal :=
  .next (phasePinLogic .a .com3 true c0 s)

/-- PINB.WGM5.COM0 (42_waveform_tick.md R145). -/
def execPinBWgm5Com0 (c0 : Byte) (s : State) : Host.Outcome State Fault Refusal :=
  .next (phasePinLogic .b .com0 true c0 s)

/-- PINB.WGM5.COM1 (42_waveform_tick.md R145). -/
def execPinBWgm5Com1 (c0 : Byte) (s : State) : Host.Outcome State Fault Refusal :=
  .next (phasePinLogic .b .com1 true c0 s)

/-- PINB.WGM5.COM2 (42_waveform_tick.md R145). -/
def execPinBWgm5Com2 (c0 : Byte) (s : State) : Host.Outcome State Fault Refusal :=
  .next (phasePinLogic .b .com2 true c0 s)

/-- PINB.WGM5.COM3 (42_waveform_tick.md R145). -/
def execPinBWgm5Com3 (c0 : Byte) (s : State) : Host.Outcome State Fault Refusal :=
  .next (phasePinLogic .b .com3 true c0 s)

/-- PINA.WGM6.COM0 (42_waveform_tick.md R134). -/
def execPinAWgm6Com0 (s : State) : Host.Outcome State Fault Refusal :=
  .next (nonPwmAction .a .com0 s)

/-- PINA.WGM6.COM1 (42_waveform_tick.md R134). -/
def execPinAWgm6Com1 (s : State) : Host.Outcome State Fault Refusal :=
  .next (nonPwmAction .a .com1 s)

/-- PINA.WGM6.COM2 (42_waveform_tick.md R134). -/
def execPinAWgm6Com2 (s : State) : Host.Outcome State Fault Refusal :=
  .next (nonPwmAction .a .com2 s)

/-- PINA.WGM6.COM3 (42_waveform_tick.md R134). -/
def execPinAWgm6Com3 (s : State) : Host.Outcome State Fault Refusal :=
  .next (nonPwmAction .a .com3 s)

/-- PINB.WGM6.COM0 (42_waveform_tick.md R134). -/
def execPinBWgm6Com0 (s : State) : Host.Outcome State Fault Refusal :=
  .next (nonPwmAction .b .com0 s)

/-- PINB.WGM6.COM1 (42_waveform_tick.md R134). -/
def execPinBWgm6Com1 (s : State) : Host.Outcome State Fault Refusal :=
  .next (nonPwmAction .b .com1 s)

/-- PINB.WGM6.COM2 (42_waveform_tick.md R134). -/
def execPinBWgm6Com2 (s : State) : Host.Outcome State Fault Refusal :=
  .next (nonPwmAction .b .com2 s)

/-- PINB.WGM6.COM3 (42_waveform_tick.md R134). -/
def execPinBWgm6Com3 (s : State) : Host.Outcome State Fault Refusal :=
  .next (nonPwmAction .b .com3 s)

/-- PINA.WGM7.COM0 (42_waveform_tick.md R144). -/
def execPinAWgm7Com0 (c0 : Byte) (s : State) : Host.Outcome State Fault Refusal :=
  .next (fastPinLogic .a .com0 true c0 s)

/-- PINA.WGM7.COM1 (42_waveform_tick.md R144). -/
def execPinAWgm7Com1 (c0 : Byte) (s : State) : Host.Outcome State Fault Refusal :=
  .next (fastPinLogic .a .com1 true c0 s)

/-- PINA.WGM7.COM2 (42_waveform_tick.md R144). -/
def execPinAWgm7Com2 (c0 : Byte) (s : State) : Host.Outcome State Fault Refusal :=
  .next (fastPinLogic .a .com2 true c0 s)

/-- PINA.WGM7.COM3 (42_waveform_tick.md R144). -/
def execPinAWgm7Com3 (c0 : Byte) (s : State) : Host.Outcome State Fault Refusal :=
  .next (fastPinLogic .a .com3 true c0 s)

/-- PINB.WGM7.COM0 (42_waveform_tick.md R144). -/
def execPinBWgm7Com0 (c0 : Byte) (s : State) : Host.Outcome State Fault Refusal :=
  .next (fastPinLogic .b .com0 true c0 s)

/-- PINB.WGM7.COM1 (42_waveform_tick.md R144). -/
def execPinBWgm7Com1 (c0 : Byte) (s : State) : Host.Outcome State Fault Refusal :=
  .next (fastPinLogic .b .com1 true c0 s)

/-- PINB.WGM7.COM2 (42_waveform_tick.md R144). -/
def execPinBWgm7Com2 (c0 : Byte) (s : State) : Host.Outcome State Fault Refusal :=
  .next (fastPinLogic .b .com2 true c0 s)

/-- PINB.WGM7.COM3 (42_waveform_tick.md R144). -/
def execPinBWgm7Com3 (c0 : Byte) (s : State) : Host.Outcome State Fault Refusal :=
  .next (fastPinLogic .b .com3 true c0 s)

end Sys2Proof.Machine
end

