-- ==== Sys2Proof/Machine/Ports.lean ====
section
/-! DEFINITION. RD and WR of the seven ports (40_register_ports.md R100 to R116). -/

namespace Sys2Proof.Machine

/-- RD_CTRLA (40_register_ports.md R101). -/
def execRdCtrla (s : State) : Host.Outcome State Fault Refusal :=
  .next (answer (.data (portRead .ctrla s)) s)

/-- WR_CTRLA (40_register_ports.md R102). -/
def execWrCtrla (v : Byte) (s : State) : Host.Outcome State Fault Refusal :=
  .next (portWrite .ctrla v s)

/-- RD_CTRLB (40_register_ports.md R103). -/
def execRdCtrlb (s : State) : Host.Outcome State Fault Refusal :=
  .next (answer (.data (portRead .ctrlb s)) s)

/-- WR_CTRLB (40_register_ports.md R104). -/
def execWrCtrlb (v : Byte) (s : State) : Host.Outcome State Fault Refusal :=
  .next (portWrite .ctrlb v s)

/-- RD_COUNT (40_register_ports.md R105). -/
def execRdCount (s : State) : Host.Outcome State Fault Refusal :=
  .next (answer (.data (portRead .count s)) s)

/-- WR_COUNT (40_register_ports.md R106). -/
def execWrCount (v : Byte) (s : State) : Host.Outcome State Fault Refusal :=
  .next (portWrite .count v s)

/-- RD_CMPA (40_register_ports.md R107). -/
def execRdCmpa (s : State) : Host.Outcome State Fault Refusal :=
  .next (answer (.data (portRead .cmpa s)) s)

/-- WR_CMPA (40_register_ports.md R108). -/
def execWrCmpa (v : Byte) (s : State) : Host.Outcome State Fault Refusal :=
  .next (portWrite .cmpa v s)

/-- RD_CMPB (40_register_ports.md R109). -/
def execRdCmpb (s : State) : Host.Outcome State Fault Refusal :=
  .next (answer (.data (portRead .cmpb s)) s)

/-- WR_CMPB (40_register_ports.md R110). -/
def execWrCmpb (v : Byte) (s : State) : Host.Outcome State Fault Refusal :=
  .next (portWrite .cmpb v s)

/-- RD_MASK (40_register_ports.md R111). -/
def execRdMask (s : State) : Host.Outcome State Fault Refusal :=
  .next (answer (.data (portRead .mask s)) s)

/-- WR_MASK (40_register_ports.md R112). -/
def execWrMask (v : Byte) (s : State) : Host.Outcome State Fault Refusal :=
  .next (portWrite .mask v s)

/-- RD_FLAGS (40_register_ports.md R113). -/
def execRdFlags (s : State) : Host.Outcome State Fault Refusal :=
  .next (answer (.data (portRead .flags s)) s)

/-- WR_FLAGS (40_register_ports.md R114). -/
def execWrFlags (v : Byte) (s : State) : Host.Outcome State Fault Refusal :=
  .next (portWrite .flags v s)

end Sys2Proof.Machine
end

