-- ==== Sys2Proof/Machine/Prescaler.lean ====
section
/-! DEFINITION. ADVANCE and its eight clock-select cases (43_prescaler.md R170 to R176). -/

namespace Sys2Proof.Machine

/-- ADVANCE (43_prescaler.md R171: the case is read once, at the start). -/
def execAdvance (n : Nat) (s : State) : Host.Outcome State Fault Refusal :=
  .next (advanceBy s.clock n s)

/-- CLK.STOP (43_prescaler.md R173). -/
def execClkStop (n : Nat) (s : State) : Host.Outcome State Fault Refusal :=
  .next (advanceBy .stop n s)

/-- CLK.DIV1 (43_prescaler.md R172). -/
def execClkDiv1 (n : Nat) (s : State) : Host.Outcome State Fault Refusal :=
  .next (advanceBy .div1 n s)

/-- CLK.DIV8 (43_prescaler.md R172). -/
def execClkDiv8 (n : Nat) (s : State) : Host.Outcome State Fault Refusal :=
  .next (advanceBy .div8 n s)

/-- CLK.DIV64 (43_prescaler.md R172). -/
def execClkDiv64 (n : Nat) (s : State) : Host.Outcome State Fault Refusal :=
  .next (advanceBy .div64 n s)

/-- CLK.DIV256 (43_prescaler.md R172). -/
def execClkDiv256 (n : Nat) (s : State) : Host.Outcome State Fault Refusal :=
  .next (advanceBy .div256 n s)

/-- CLK.DIV1024 (43_prescaler.md R172). -/
def execClkDiv1024 (n : Nat) (s : State) : Host.Outcome State Fault Refusal :=
  .next (advanceBy .div1024 n s)

/-- CLK.EXT6 (43_prescaler.md R174). -/
def execClkExt6 (n : Nat) (s : State) : Host.Outcome State Fault Refusal :=
  .next (advanceBy .ext6 n s)

/-- CLK.EXT7 (43_prescaler.md R174). -/
def execClkExt7 (n : Nat) (s : State) : Host.Outcome State Fault Refusal :=
  .next (advanceBy .ext7 n s)

end Sys2Proof.Machine
end

