-- ==== Sys2Proof/Machine/Reset.lean ====
section
/-! DEFINITION. RESET (70_reset_and_hazards.md R230). -/

namespace Sys2Proof.Machine

/-- RESET (70_reset_and_hazards.md R230). -/
def execReset (s : State) : Host.Outcome State Fault Refusal :=
  .next (resetTimer s)

end Sys2Proof.Machine
end

