-- ==== Sys2Proof/Machine/Waveform.lean ====
section
/-! DEFINITION. The eight ticks, each a whole peripheral tick with that mode's handler (42_waveform_tick.md
R130, R135 to R143; log 9), and forced output compare (R149). -/

namespace Sys2Proof.Machine

/-- TICK.NORMAL (42_waveform_tick.md R135). -/
def execTickNormal (s : State) : Host.Outcome State Fault Refusal :=
  .next (tickAs .normal s)

/-- TICK.PCPWM_FF (42_waveform_tick.md R142). -/
def execTickPcpwmFf (s : State) : Host.Outcome State Fault Refusal :=
  .next (tickAs .pcpwmFf s)

/-- TICK.CTC (42_waveform_tick.md R136). -/
def execTickCtc (s : State) : Host.Outcome State Fault Refusal :=
  .next (tickAs .ctc s)

/-- TICK.FASTPWM_FF (42_waveform_tick.md R139). -/
def execTickFastpwmFf (s : State) : Host.Outcome State Fault Refusal :=
  .next (tickAs .fastpwmFf s)

/-- TICK.RESERVED4 (42_waveform_tick.md R137). -/
def execTickReserved4 (s : State) : Host.Outcome State Fault Refusal :=
  .next (tickAs .reserved4 s)

/-- TICK.PCPWM_OCRA (42_waveform_tick.md R143). -/
def execTickPcpwmOcra (s : State) : Host.Outcome State Fault Refusal :=
  .next (tickAs .pcpwmOcra s)

/-- TICK.RESERVED6 (42_waveform_tick.md R137). -/
def execTickReserved6 (s : State) : Host.Outcome State Fault Refusal :=
  .next (tickAs .reserved6 s)

/-- TICK.FASTPWM_OCRA (42_waveform_tick.md R140). -/
def execTickFastpwmOcra (s : State) : Host.Outcome State Fault Refusal :=
  .next (tickAs .fastpwmOcra s)

/-- FOC (42_waveform_tick.md R149). -/
def execFoc (a : Bool) (b : Bool) (s : State) : Host.Outcome State Fault Refusal :=
  .next (forceCompare a b s)

end Sys2Proof.Machine
end

