-- ==== Sys2Proof/Machine/Dispatch.lean ====
section
/-! DEFINITION. One arm per constructor of `Instr`, each one call of its meaning. -/

namespace Sys2Proof.Machine

/-- The meaning of an instruction. -/
def exec (i : Instr) (s : State) : Host.Outcome State Fault Refusal :=
  match i with
  | .rdCtrla => Sys2Proof.Machine.execRdCtrla s
  | .wrCtrla v => Sys2Proof.Machine.execWrCtrla v s
  | .rdCtrlb => Sys2Proof.Machine.execRdCtrlb s
  | .wrCtrlb v => Sys2Proof.Machine.execWrCtrlb v s
  | .rdCount => Sys2Proof.Machine.execRdCount s
  | .wrCount v => Sys2Proof.Machine.execWrCount v s
  | .rdCmpa => Sys2Proof.Machine.execRdCmpa s
  | .wrCmpa v => Sys2Proof.Machine.execWrCmpa v s
  | .rdCmpb => Sys2Proof.Machine.execRdCmpb s
  | .wrCmpb v => Sys2Proof.Machine.execWrCmpb v s
  | .rdMask => Sys2Proof.Machine.execRdMask s
  | .wrMask v => Sys2Proof.Machine.execWrMask v s
  | .rdFlags => Sys2Proof.Machine.execRdFlags s
  | .wrFlags v => Sys2Proof.Machine.execWrFlags v s
  | .advance n => Sys2Proof.Machine.execAdvance n s
  | .foc a b => Sys2Proof.Machine.execFoc a b s
  | .attachSink pin sink => Sys2Proof.Machine.execAttachSink pin sink s
  | .reset => Sys2Proof.Machine.execReset s
  | .tickNormal => Sys2Proof.Machine.execTickNormal s
  | .tickPcpwmFf => Sys2Proof.Machine.execTickPcpwmFf s
  | .tickCtc => Sys2Proof.Machine.execTickCtc s
  | .tickFastpwmFf => Sys2Proof.Machine.execTickFastpwmFf s
  | .tickReserved4 => Sys2Proof.Machine.execTickReserved4 s
  | .tickPcpwmOcra => Sys2Proof.Machine.execTickPcpwmOcra s
  | .tickReserved6 => Sys2Proof.Machine.execTickReserved6 s
  | .tickFastpwmOcra => Sys2Proof.Machine.execTickFastpwmOcra s
  | .clkStop n => Sys2Proof.Machine.execClkStop n s
  | .clkDiv1 n => Sys2Proof.Machine.execClkDiv1 n s
  | .clkDiv8 n => Sys2Proof.Machine.execClkDiv8 n s
  | .clkDiv64 n => Sys2Proof.Machine.execClkDiv64 n s
  | .clkDiv256 n => Sys2Proof.Machine.execClkDiv256 n s
  | .clkDiv1024 n => Sys2Proof.Machine.execClkDiv1024 n s
  | .clkExt6 n => Sys2Proof.Machine.execClkExt6 n s
  | .clkExt7 n => Sys2Proof.Machine.execClkExt7 n s
  | .pinAWgm0Com0 => Sys2Proof.Machine.execPinAWgm0Com0 s
  | .pinAWgm0Com1 => Sys2Proof.Machine.execPinAWgm0Com1 s
  | .pinAWgm0Com2 => Sys2Proof.Machine.execPinAWgm0Com2 s
  | .pinAWgm0Com3 => Sys2Proof.Machine.execPinAWgm0Com3 s
  | .pinBWgm0Com0 => Sys2Proof.Machine.execPinBWgm0Com0 s
  | .pinBWgm0Com1 => Sys2Proof.Machine.execPinBWgm0Com1 s
  | .pinBWgm0Com2 => Sys2Proof.Machine.execPinBWgm0Com2 s
  | .pinBWgm0Com3 => Sys2Proof.Machine.execPinBWgm0Com3 s
  | .pinAWgm1Com0 c0 => Sys2Proof.Machine.execPinAWgm1Com0 c0 s
  | .pinAWgm1Com1 c0 => Sys2Proof.Machine.execPinAWgm1Com1 c0 s
  | .pinAWgm1Com2 c0 => Sys2Proof.Machine.execPinAWgm1Com2 c0 s
  | .pinAWgm1Com3 c0 => Sys2Proof.Machine.execPinAWgm1Com3 c0 s
  | .pinBWgm1Com0 c0 => Sys2Proof.Machine.execPinBWgm1Com0 c0 s
  | .pinBWgm1Com1 c0 => Sys2Proof.Machine.execPinBWgm1Com1 c0 s
  | .pinBWgm1Com2 c0 => Sys2Proof.Machine.execPinBWgm1Com2 c0 s
  | .pinBWgm1Com3 c0 => Sys2Proof.Machine.execPinBWgm1Com3 c0 s
  | .pinAWgm2Com0 => Sys2Proof.Machine.execPinAWgm2Com0 s
  | .pinAWgm2Com1 => Sys2Proof.Machine.execPinAWgm2Com1 s
  | .pinAWgm2Com2 => Sys2Proof.Machine.execPinAWgm2Com2 s
  | .pinAWgm2Com3 => Sys2Proof.Machine.execPinAWgm2Com3 s
  | .pinBWgm2Com0 => Sys2Proof.Machine.execPinBWgm2Com0 s
  | .pinBWgm2Com1 => Sys2Proof.Machine.execPinBWgm2Com1 s
  | .pinBWgm2Com2 => Sys2Proof.Machine.execPinBWgm2Com2 s
  | .pinBWgm2Com3 => Sys2Proof.Machine.execPinBWgm2Com3 s
  | .pinAWgm3Com0 c0 => Sys2Proof.Machine.execPinAWgm3Com0 c0 s
  | .pinAWgm3Com1 c0 => Sys2Proof.Machine.execPinAWgm3Com1 c0 s
  | .pinAWgm3Com2 c0 => Sys2Proof.Machine.execPinAWgm3Com2 c0 s
  | .pinAWgm3Com3 c0 => Sys2Proof.Machine.execPinAWgm3Com3 c0 s
  | .pinBWgm3Com0 c0 => Sys2Proof.Machine.execPinBWgm3Com0 c0 s
  | .pinBWgm3Com1 c0 => Sys2Proof.Machine.execPinBWgm3Com1 c0 s
  | .pinBWgm3Com2 c0 => Sys2Proof.Machine.execPinBWgm3Com2 c0 s
  | .pinBWgm3Com3 c0 => Sys2Proof.Machine.execPinBWgm3Com3 c0 s
  | .pinAWgm4Com0 => Sys2Proof.Machine.execPinAWgm4Com0 s
  | .pinAWgm4Com1 => Sys2Proof.Machine.execPinAWgm4Com1 s
  | .pinAWgm4Com2 => Sys2Proof.Machine.execPinAWgm4Com2 s
  | .pinAWgm4Com3 => Sys2Proof.Machine.execPinAWgm4Com3 s
  | .pinBWgm4Com0 => Sys2Proof.Machine.execPinBWgm4Com0 s
  | .pinBWgm4Com1 => Sys2Proof.Machine.execPinBWgm4Com1 s
  | .pinBWgm4Com2 => Sys2Proof.Machine.execPinBWgm4Com2 s
  | .pinBWgm4Com3 => Sys2Proof.Machine.execPinBWgm4Com3 s
  | .pinAWgm5Com0 c0 => Sys2Proof.Machine.execPinAWgm5Com0 c0 s
  | .pinAWgm5Com1 c0 => Sys2Proof.Machine.execPinAWgm5Com1 c0 s
  | .pinAWgm5Com2 c0 => Sys2Proof.Machine.execPinAWgm5Com2 c0 s
  | .pinAWgm5Com3 c0 => Sys2Proof.Machine.execPinAWgm5Com3 c0 s
  | .pinBWgm5Com0 c0 => Sys2Proof.Machine.execPinBWgm5Com0 c0 s
  | .pinBWgm5Com1 c0 => Sys2Proof.Machine.execPinBWgm5Com1 c0 s
  | .pinBWgm5Com2 c0 => Sys2Proof.Machine.execPinBWgm5Com2 c0 s
  | .pinBWgm5Com3 c0 => Sys2Proof.Machine.execPinBWgm5Com3 c0 s
  | .pinAWgm6Com0 => Sys2Proof.Machine.execPinAWgm6Com0 s
  | .pinAWgm6Com1 => Sys2Proof.Machine.execPinAWgm6Com1 s
  | .pinAWgm6Com2 => Sys2Proof.Machine.execPinAWgm6Com2 s
  | .pinAWgm6Com3 => Sys2Proof.Machine.execPinAWgm6Com3 s
  | .pinBWgm6Com0 => Sys2Proof.Machine.execPinBWgm6Com0 s
  | .pinBWgm6Com1 => Sys2Proof.Machine.execPinBWgm6Com1 s
  | .pinBWgm6Com2 => Sys2Proof.Machine.execPinBWgm6Com2 s
  | .pinBWgm6Com3 => Sys2Proof.Machine.execPinBWgm6Com3 s
  | .pinAWgm7Com0 c0 => Sys2Proof.Machine.execPinAWgm7Com0 c0 s
  | .pinAWgm7Com1 c0 => Sys2Proof.Machine.execPinAWgm7Com1 c0 s
  | .pinAWgm7Com2 c0 => Sys2Proof.Machine.execPinAWgm7Com2 c0 s
  | .pinAWgm7Com3 c0 => Sys2Proof.Machine.execPinAWgm7Com3 c0 s
  | .pinBWgm7Com0 c0 => Sys2Proof.Machine.execPinBWgm7Com0 c0 s
  | .pinBWgm7Com1 c0 => Sys2Proof.Machine.execPinBWgm7Com1 c0 s
  | .pinBWgm7Com2 c0 => Sys2Proof.Machine.execPinBWgm7Com2 c0 s
  | .pinBWgm7Com3 c0 => Sys2Proof.Machine.execPinBWgm7Com3 c0 s
  | .dispatchOvf => Sys2Proof.Machine.execDispatchOvf s
  | .dispatchCompa => Sys2Proof.Machine.execDispatchCompa s
  | .dispatchCompb => Sys2Proof.Machine.execDispatchCompb s
  | .dispatchNone => Sys2Proof.Machine.execDispatchNone s

end Sys2Proof.Machine
end

