-- ==== Sys2Proof/Machine/Fetch.lean ====
section
/-! DEFINITION. Taking the next host command: the block fetches nothing itself (20_memory.md R61), so the
commands stand in `State.pending` (log 1). -/

namespace Sys2Proof.Machine

/-- What the block finds when it looks for a command. -/
inductive Fetched where
  /-- No command is pending: the block is quiescent (70_reset_and_hazards.md R251; log 2). -/
  | idle
  /-- The pending word is no command (30_encoding.md R83; log 3). -/
  | notACommand (word : Word16)
  /-- A command, and the state in which it begins. -/
  | command (i : Instr) (s : State)
deriving DecidableEq, Repr

/-- A command begins: it leaves the queue, and its event list and result are empty (00_scope.md R9, R10: "the
output event list of the current host command"; log 8). -/
def beginCommand (rest : List HostCommand) (s : State) : State :=
  { s with pending := rest, events := [], result := .noResult }

/-- The next command, decoded (30_encoding.md R88). -/
def fetch (s : State) : Fetched :=
  match s.pending with
  | [] => .idle
  | c :: rest =>
      match c.decode with
      | none => .notACommand c.word
      | some i => .command i (beginCommand rest s)

/-- A command word put where the next step takes it, with nothing beside it. -/
def placeWord (s : State) (w : Nat) : State :=
  { s with pending := ⟨BitVec.ofNat 16 w, 0, 0⟩ :: s.pending }

end Sys2Proof.Machine
end

