-- ==== Sys2Proof/Machine/Step.lean ====
section
/-! DEFINITION. One step of the machine: one host command (00_scope.md R8, 60_exceptions.md R202). -/

namespace Sys2Proof.Machine

/-- One step. With no pending command the block is quiescent and nothing changes (10_state.md R21: "every
state change is caused by one host command"; log 2). -/
def step (s : State) : Host.Outcome State Fault Refusal :=
  match fetch s with
  | .idle => .next s
  | .notACommand w => .refused (.notACommand w)
  | .command i s' => exec i s'

/-- `s` with a command word stored where `step` takes its next command (log 1). A word longer than the
16 bits of a command (30_encoding.md R88) has no place. -/
def State.withFetchWord (s : State) (nbits w : Nat) : State :=
  if nbits ≤ 16 then placeWord s w else s

end Sys2Proof.Machine
end

