-- ==== Sys2Proof/Machine/Bus.lean ====
section
/-! DEFINITION. The block in the host's I/O space (20_memory.md R50, R58; 00_scope.md R10): a one-byte access at
`PORT_ADDR(p)` is the RD or WR command of port `p`, and an access anywhere else never reaches the
block. `Attachment` holds the open parameters (log 13); no rule of the block reads them. -/

namespace Sys2Proof.Machine

/-- `PORT_ADDR(p)` (00_scope.md R7). -/
def portAddr (t : Attachment) : Port → Nat
  | .ctrla => t.ctrlaAddr
  | .ctrlb => t.ctrlbAddr
  | .count => t.countAddr
  | .cmpa => t.cmpaAddr
  | .cmpb => t.cmpbAddr
  | .mask => t.maskAddr
  | .flags => t.flagsAddr

/-- `VECTOR_NAME(v)` (00_scope.md R7, 44_interrupt_dispatch.md R190). -/
def vectorName (t : Attachment) : Source → String
  | .ovf => t.ovfName
  | .compa => t.compaName
  | .compb => t.compbName

/-- The port at a host address, if any. -/
def portAt (t : Attachment) (addr : Nat) : Option Port :=
  [Port.ctrla, .ctrlb, .count, .cmpa, .cmpb, .mask, .flags].find? (fun p => portAddr t p == addr)

/-- A one-byte read by the host at an address of its I/O space (20_memory.md R58): the RD command of the port
there, or no effect on the block. -/
def busRead (t : Attachment) (addr : Nat) (s : State) : Host.Outcome State Fault Refusal :=
  match portAt t addr with
  | some p => exec (readOf p) s
  | none => .next s

/-- A one-byte write by the host at an address of its I/O space (20_memory.md R58). -/
def busWrite (t : Attachment) (addr : Nat) (v : Byte) (s : State) :
    Host.Outcome State Fault Refusal :=
  match portAt t addr with
  | some p => exec (writeOf p v) s
  | none => .next s

end Sys2Proof.Machine
end

