-- ==== Sys2Proof/Safety.lean ====
section
/-! DEFINITION. The vocabulary of the claims: the invariants of 10_state.md, and the effects of the rules
written as plain record updates, so that a statement can be read beside the rule without the
machine's own operations. -/

namespace Sys2Proof.Machine

/-! ### Invariants -/

/-- "Bits 7:3 are 0 at reset, no rule ever sets them, and a write can only clear" (10_state.md R28). -/
abbrev FlagsClean (s : State) : Prop := s.interruptFlags &&& 0xF8 = 0

/-- The carried remainder is "at most 1023" (10_state.md R33). -/
abbrev RemainderBounded (s : State) : Prop := s.excessTicks < 1024

/-- With `P_INHIBIT_ON_COUNT_WRITE = false` the inhibit flag "is `false` in every reachable state"
(10_state.md R32). -/
abbrev InhibitNeedsParameter (s : State) : Prop :=
  s.params.inhibitOnCountWrite = false → s.inhibitNextCompareMatch = false

/-- The invariant of the machine. -/
abbrev TimerInv (s : State) : Prop := FlagsClean s ∧ RemainderBounded s ∧ InhibitNeedsParameter s

/-! ### Effects as record updates -/

/-- The sink call of a level, if a sink is bound (41_pin_driver.md R120). -/
def called (X : Pin) (sink : Option Nat) (l : Bool) : List Event :=
  match sink with
  | some _ => [.sinkCall X l]
  | none => []

/-- Pin A driven to a level: the level, and one sink call if it changed (41_pin_driver.md R121 to R123; a toggle
is a drive to the opposite level). -/
def drivenA (l : Bool) (s : State) : State :=
  { s with
    outputPinStateA := l
    events := s.events ++ if s.outputPinStateA = l then [] else called .a s.outputPinSinkA l }

/-- Pin B driven to a level (41_pin_driver.md R121 to R123). -/
def drivenB (l : Bool) (s : State) : State :=
  { s with
    outputPinStateB := l
    events := s.events ++ if s.outputPinStateB = l then [] else called .b s.outputPinSinkB l }

/-- The flags after step 1 of a tick (42_waveform_tick.md R131). -/
def detectedFlags (s : State) : Byte :=
  if s.inhibitNextCompareMatch then s.interruptFlags
  else s.interruptFlags ||| (if s.count = s.compareA then 0x02 else 0x00)
    ||| (if s.count = s.compareB then 0x04 else 0x00)

/-- The state after step 1 of a tick (42_waveform_tick.md R131). -/
def detected (s : State) : State :=
  { s with inhibitNextCompareMatch := false, interruptFlags := detectedFlags s }

/-- The flags after DISPATCH when the host answers `enabled`: the first pending and enabled one is cleared
(44_interrupt_dispatch.md R186). -/
def dispatchedFlags (enabled : Bool) (flags mask : Byte) : Byte :=
  if enabled = false then flags
  else if flags.getLsbD 0 ∧ mask.getLsbD 0 then flags &&& 0xFE
  else if flags.getLsbD 1 ∧ mask.getLsbD 1 then flags &&& 0xFD
  else if flags.getLsbD 2 ∧ mask.getLsbD 2 then flags &&& 0xFB
  else flags

/-- The events of a granted request (44_interrupt_dispatch.md R186, R187). -/
def requestEvents (v : Source) (handled : Bool) : List Event :=
  .irqRequest v :: if handled then [] else [.diagNoVector v]

/-- The host's answer in the next tick: the next listed one, else the free value (00_scope.md R9, log 5). -/
def answerOf (s : State) : HostAnswer := s.answers.headD (Config.freeAnswer s.asked)

/-- The state once the host has been asked (log 5). -/
def askedOnce (s : State) : State := { s with answers := s.answers.tail, asked := s.asked + 1 }

/-- What a tick never writes (42_waveform_tick.md R148): `controlA`, `controlB`, `interruptMask`, the buffers, the
sinks and `excessTicks`; and, of the model's own fields, the parameters, the queue and the result. -/
def TickKeeps (s t : State) : Prop :=
  t.controlA = s.controlA ∧ t.controlB = s.controlB ∧ t.interruptMask = s.interruptMask ∧
  t.compareBufferA = s.compareBufferA ∧ t.compareBufferB = s.compareBufferB ∧
  t.outputPinSinkA = s.outputPinSinkA ∧ t.outputPinSinkB = s.outputPinSinkB ∧
  t.excessTicks = s.excessTicks ∧ t.params = s.params ∧ t.pending = s.pending ∧
  t.result = s.result

/-- The eight ticks of 30_encoding.md R75, by WGM value. -/
def tickRows : List Instr :=
  [ .tickNormal, .tickPcpwmFf, .tickCtc, .tickFastpwmFf, .tickReserved4, .tickPcpwmOcra,
    .tickReserved6, .tickFastpwmOcra ]

/-- The pin logic rows of pin A (30_encoding.md R91): row `4 * WGM + COM`. -/
def pinARows (c0 : Byte) : List Instr :=
  [ .pinAWgm0Com0, .pinAWgm0Com1, .pinAWgm0Com2, .pinAWgm0Com3,
    .pinAWgm1Com0 c0, .pinAWgm1Com1 c0, .pinAWgm1Com2 c0, .pinAWgm1Com3 c0,
    .pinAWgm2Com0, .pinAWgm2Com1, .pinAWgm2Com2, .pinAWgm2Com3,
    .pinAWgm3Com0 c0, .pinAWgm3Com1 c0, .pinAWgm3Com2 c0, .pinAWgm3Com3 c0,
    .pinAWgm4Com0, .pinAWgm4Com1, .pinAWgm4Com2, .pinAWgm4Com3,
    .pinAWgm5Com0 c0, .pinAWgm5Com1 c0, .pinAWgm5Com2 c0, .pinAWgm5Com3 c0,
    .pinAWgm6Com0, .pinAWgm6Com1, .pinAWgm6Com2, .pinAWgm6Com3,
    .pinAWgm7Com0 c0, .pinAWgm7Com1 c0, .pinAWgm7Com2 c0, .pinAWgm7Com3 c0 ]

/-- The pin logic rows of pin B (30_encoding.md R91): row `4 * WGM + COM`. -/
def pinBRows (c0 : Byte) : List Instr :=
  [ .pinBWgm0Com0, .pinBWgm0Com1, .pinBWgm0Com2, .pinBWgm0Com3,
    .pinBWgm1Com0 c0, .pinBWgm1Com1 c0, .pinBWgm1Com2 c0, .pinBWgm1Com3 c0,
    .pinBWgm2Com0, .pinBWgm2Com1, .pinBWgm2Com2, .pinBWgm2Com3,
    .pinBWgm3Com0 c0, .pinBWgm3Com1 c0, .pinBWgm3Com2 c0, .pinBWgm3Com3 c0,
    .pinBWgm4Com0, .pinBWgm4Com1, .pinBWgm4Com2, .pinBWgm4Com3,
    .pinBWgm5Com0 c0, .pinBWgm5Com1 c0, .pinBWgm5Com2 c0, .pinBWgm5Com3 c0,
    .pinBWgm6Com0, .pinBWgm6Com1, .pinBWgm6Com2, .pinBWgm6Com3,
    .pinBWgm7Com0 c0, .pinBWgm7Com1 c0, .pinBWgm7Com2 c0, .pinBWgm7Com3 c0 ]

/-- The eight clock-select rows of 30_encoding.md R76, by CS value. -/
def clockRows (n : Nat) : List Instr :=
  [ .clkStop n, .clkDiv1 n, .clkDiv8 n, .clkDiv64 n, .clkDiv256 n, .clkDiv1024 n, .clkExt6 n,
    .clkExt7 n ]

end Sys2Proof.Machine
end

