-- ==== Sys2Proof/Certificates/Slice0/Obligations.lean ====
section
/-! DEFINITION. The statements for the provers, from the numbered rules of spec/. -/

open Sys2Proof Sys2Proof.Machine

/-! ### Reset -/

/-- 10_state.md section 7 (R35, the spec's own decision D6; log 12): every field of `T` is zero, false or
absent at reset. -/
def Obligations.ResetStateHoldsTableValues : Prop :=
  State.reset.controlA = 0x00 ∧ State.reset.controlB = 0x00 ∧ State.reset.count = 0x00 ∧
  State.reset.compareA = 0x00 ∧ State.reset.compareB = 0x00 ∧
  State.reset.compareBufferA = 0x00 ∧ State.reset.compareBufferB = 0x00 ∧
  State.reset.interruptMask = 0x00 ∧ State.reset.interruptFlags = 0x00 ∧
  State.reset.countingDownwards = false ∧
  State.reset.outputPinStateA = false ∧ State.reset.outputPinStateB = false ∧
  State.reset.outputPinSinkA = none ∧ State.reset.outputPinSinkB = none ∧
  State.reset.inhibitNextCompareMatch = false ∧ State.reset.excessTicks = 0

/-- 70_reset_and_hazards.md section 1 (R230, decision D6; log 12): RESET gives every field of `T` its reset value and
emits nothing; the model's parameters and the host's side stay. -/
def Obligations.ResetCommandRestoresTimer : Prop :=
  ∀ (s : State) (n k : Nat),
    decodeHcw 0x5000 n k = some .reset ∧
    exec .reset s = .next
      { controlA := 0x00, controlB := 0x00, count := 0x00, compareA := 0x00, compareB := 0x00,
        compareBufferA := 0x00, compareBufferB := 0x00, interruptMask := 0x00,
        interruptFlags := 0x00, countingDownwards := false, outputPinStateA := false,
        outputPinStateB := false, outputPinSinkA := none, outputPinSinkB := none,
        inhibitNextCompareMatch := false, excessTicks := 0,
        params := s.params, pending := s.pending, answers := s.answers, asked := s.asked,
        events := s.events, result := s.result }

/-! ### Ports -/

/-- R101, R103, R105, R111, R113: the words that decode to RD of CTRLA, CTRLB, COUNT, MASK and FLAGS, and
what each answers; a read changes nothing else. -/
def Obligations.ReadCommandsAnswerTheirPort : Prop :=
  ∀ (s : State) (x : Byte) (n k : Nat),
    (decodeHcw (0x00#8 ++ x) n k = some .rdCtrla ∧
      exec .rdCtrla s = .next { s with result := .data s.controlA }) ∧
    (decodeHcw (0x01#8 ++ x) n k = some .rdCtrlb ∧
      exec .rdCtrlb s = .next { s with result := .data s.controlB }) ∧
    (decodeHcw (0x02#8 ++ x) n k = some .rdCount ∧
      exec .rdCount s = .next { s with result := .data s.count }) ∧
    (decodeHcw (0x05#8 ++ x) n k = some .rdMask ∧
      exec .rdMask s = .next { s with result := .data s.interruptMask }) ∧
    (decodeHcw (0x06#8 ++ x) n k = some .rdFlags ∧
      exec .rdFlags s = .next { s with result := .data s.interruptFlags })

/-- 40_register_ports.md, CMPA and CMPB (R107, R109, the spec's own decision D29): a read of a compare port
answers the buffer, not the active register. -/
def Obligations.ReadCompareAnswersBuffer : Prop :=
  ∀ (s : State) (x : Byte) (n k : Nat),
    (decodeHcw (0x03#8 ++ x) n k = some .rdCmpa ∧
      exec .rdCmpa s = .next { s with result := .data s.compareBufferA }) ∧
    (decodeHcw (0x04#8 ++ x) n k = some .rdCmpb ∧
      exec .rdCmpb s = .next { s with result := .data s.compareBufferB })

/-- R102, R104, R112: WR CTRLA, CTRLB and MASK store the whole byte and do nothing else. -/
def Obligations.WriteControlAndMaskStoreWholeByte : Prop :=
  ∀ (s : State) (v : Byte) (n k : Nat),
    (decodeHcw (0x10#8 ++ v) n k = some (.wrCtrla v) ∧
      exec (.wrCtrla v) s = .next { s with controlA := v }) ∧
    (decodeHcw (0x11#8 ++ v) n k = some (.wrCtrlb v) ∧
      exec (.wrCtrlb v) s = .next { s with controlB := v }) ∧
    (decodeHcw (0x15#8 ++ v) n k = some (.wrMask v) ∧
      exec (.wrMask v) s = .next { s with interruptMask := v })

/-- R114: WR FLAGS is write-one-to-clear; 0x00 is a no-op and 0xFF clears all flags; no port write sets a
flag. -/
def Obligations.WriteFlagsClearsOnes : Prop :=
  ∀ (s : State) (v : Byte) (n k : Nat),
    decodeHcw (0x16#8 ++ v) n k = some (.wrFlags v) ∧
    exec (.wrFlags v) s = .next { s with interruptFlags := s.interruptFlags &&& ~~~v } ∧
    exec (.wrFlags 0x00) s = .next s ∧
    exec (.wrFlags 0xFF) s = .next { s with interruptFlags := 0x00 } ∧
    ∀ p : Port, ∃ t : State, exec (writeOf p v) s = .next t ∧
      t.interruptFlags &&& ~~~s.interruptFlags = 0x00

/-- 40_register_ports.md, COUNT (R106, the spec's own decision D18): WR COUNT stores the value, and sets the inhibit
flag if and only if the parameter says so. -/
def Obligations.WriteCountStoresAndInhibits : Prop :=
  ∀ (s : State) (v : Byte) (n k : Nat),
    decodeHcw (0x12#8 ++ v) n k = some (.wrCount v) ∧
    (s.params.inhibitOnCountWrite = false →
      exec (.wrCount v) s = .next { s with count := v }) ∧
    (s.params.inhibitOnCountWrite = true →
      exec (.wrCount v) s = .next { s with count := v, inhibitNextCompareMatch := true })

/-- 40_register_ports.md, CMPA and CMPB (R108, R110): a write to a compare port reaches the buffer only. -/
def Obligations.WriteCompareStagesBuffer : Prop :=
  ∀ (s : State) (v : Byte) (n k : Nat),
    (decodeHcw (0x13#8 ++ v) n k = some (.wrCmpa v) ∧
      exec (.wrCmpa v) s = .next { s with compareBufferA := v }) ∧
    (decodeHcw (0x14#8 ++ v) n k = some (.wrCmpb v) ∧
      exec (.wrCmpb v) s = .next { s with compareBufferB := v })

/-- 20_memory.md section 3 (R57, an inference the spec marks as derived): every read may be repeated, every write is
idempotent, and a read after a write answers the value written (for FLAGS, the old flags with the
written ones cleared). -/
def Obligations.PortAccessesAreIdempotent : Prop :=
  ∀ (p : Port) (v : Byte) (s : State), ∃ r w : State,
    exec (readOf p) s = .next r ∧ exec (readOf p) r = .next r ∧
    exec (writeOf p v) s = .next w ∧ exec (writeOf p v) w = .next w ∧
    exec (readOf p) w = .next
      { w with result := .data (if p = .flags then s.interruptFlags &&& ~~~v else v) }

/-- 41_pin_driver.md (R124, decision D32): ATTACHSINK binds the sink of one pin, replacing an earlier binding, and
does nothing else. -/
def Obligations.AttachSinkBindsOnePin : Prop :=
  ∀ (s : State) (n k : Nat),
    (decodeHcw 0x4000 n k = some (.attachSink .a k) ∧
      exec (.attachSink .a k) s = .next { s with outputPinSinkA := some k }) ∧
    (decodeHcw 0x4100 n k = some (.attachSink .b k) ∧
      exec (.attachSink .b k) s = .next { s with outputPinSinkB := some k })

/-- 20_memory.md section 1 (R50, R58, the last an inference the spec marks as derived; log 13): a host access at a port's
address is that port's command, and one anywhere else leaves the block unchanged. -/
def Obligations.BusAccessIsPortCommandOrNothing : Prop :=
  ∀ (t : Attachment) (s : State), t.wf = true →
    (∀ (p : Port) (v : Byte),
      busRead t (portAddr t p) s = exec (readOf p) s ∧
      busWrite t (portAddr t p) v s = exec (writeOf p v) s) ∧
    (∀ (addr : Nat) (v : Byte), addr ∉ t.addrs →
      busRead t addr s = .next s ∧ busWrite t addr v s = .next s)

/-! ### Pin logic -/

/-- R134: the non-PWM pin action (WGM 0, 2, 4, 6): COM 0 nothing, 1 toggle, 2 clear, 3 set; a level that
does not change notifies nobody. -/
def Obligations.NonPwmRowsActByComValue : Prop :=
  ∀ s : State,
    (∀ i ∈ [Instr.pinAWgm0Com0, .pinAWgm2Com0, .pinAWgm4Com0, .pinAWgm6Com0,
            .pinBWgm0Com0, .pinBWgm2Com0, .pinBWgm4Com0, .pinBWgm6Com0], exec i s = .next s) ∧
    (∀ i ∈ [Instr.pinAWgm0Com1, .pinAWgm2Com1, .pinAWgm4Com1, .pinAWgm6Com1],
      exec i s = .next (drivenA (!s.outputPinStateA) s)) ∧
    (∀ i ∈ [Instr.pinBWgm0Com1, .pinBWgm2Com1, .pinBWgm4Com1, .pinBWgm6Com1],
      exec i s = .next (drivenB (!s.outputPinStateB) s)) ∧
    (∀ i ∈ [Instr.pinAWgm0Com2, .pinAWgm2Com2, .pinAWgm4Com2, .pinAWgm6Com2],
      exec i s = .next (drivenA false s)) ∧
    (∀ i ∈ [Instr.pinBWgm0Com2, .pinBWgm2Com2, .pinBWgm4Com2, .pinBWgm6Com2],
      exec i s = .next (drivenB false s)) ∧
    (∀ i ∈ [Instr.pinAWgm0Com3, .pinAWgm2Com3, .pinAWgm4Com3, .pinAWgm6Com3],
      exec i s = .next (drivenA true s)) ∧
    (∀ i ∈ [Instr.pinBWgm0Com3, .pinBWgm2Com3, .pinBWgm4Com3, .pinBWgm6Com3],
      exec i s = .next (drivenB true s))

/-- 42_waveform_tick.md section 5 (R144; order by decision D11, own comparison by D10): fast PWM with COM 2 and 3 acts
at BOTTOM, then at the match. -/
def Obligations.FastPwmRowsActAtBottomThenMatch : Prop :=
  ∀ (s : State) (c0 : Byte),
    (∀ i ∈ [Instr.pinAWgm3Com2 c0, .pinAWgm7Com2 c0],
      exec i s = .next
        (let b := if c0 = 0 then drivenA true s else s
         if c0 = s.compareA then drivenA false b else b)) ∧
    (∀ i ∈ [Instr.pinAWgm3Com3 c0, .pinAWgm7Com3 c0],
      exec i s = .next
        (let b := if c0 = 0 then drivenA false s else s
         if c0 = s.compareA then drivenA true b else b)) ∧
    (∀ i ∈ [Instr.pinBWgm3Com2 c0, .pinBWgm7Com2 c0],
      exec i s = .next
        (let b := if c0 = 0 then drivenB true s else s
         if c0 = s.compareB then drivenB false b else b)) ∧
    (∀ i ∈ [Instr.pinBWgm3Com3 c0, .pinBWgm7Com3 c0],
      exec i s = .next
        (let b := if c0 = 0 then drivenB false s else s
         if c0 = s.compareB then drivenB true b else b))

/-- 42_waveform_tick.md section 6 (R145; direction after the turn by decision D13): phase-correct PWM with COM 2 clears
while upward and sets while downward, COM 3 the inverse, at the match only. -/
def Obligations.PhaseCorrectRowsActByDirection : Prop :=
  ∀ (s : State) (c0 : Byte),
    (∀ i ∈ [Instr.pinAWgm1Com2 c0, .pinAWgm5Com2 c0],
      exec i s = .next (if c0 = s.compareA then drivenA s.countingDownwards s else s)) ∧
    (∀ i ∈ [Instr.pinAWgm1Com3 c0, .pinAWgm5Com3 c0],
      exec i s = .next (if c0 = s.compareA then drivenA (!s.countingDownwards) s else s)) ∧
    (∀ i ∈ [Instr.pinBWgm1Com2 c0, .pinBWgm5Com2 c0],
      exec i s = .next (if c0 = s.compareB then drivenB s.countingDownwards s else s)) ∧
    (∀ i ∈ [Instr.pinBWgm1Com3 c0, .pinBWgm5Com3 c0],
      exec i s = .next (if c0 = s.compareB then drivenB (!s.countingDownwards) s else s))

/-- 30_encoding.md sections 4 and 6 (R78, R79, R83; TOGEN is WGM[2] by decision D3): in the PWM classes COM 1
toggles pin A only, only where TOGEN is 1 (WGM 5 and 7), at the match; every other row with COM 0 or 1
does nothing. -/
def Obligations.PwmToggleIsPinAWithTogenOnly : Prop :=
  ∀ (s : State) (c0 : Byte),
    (∀ i ∈ [Instr.pinAWgm5Com1 c0, .pinAWgm7Com1 c0],
      exec i s = .next (if c0 = s.compareA then drivenA (!s.outputPinStateA) s else s)) ∧
    (∀ i ∈ [Instr.pinAWgm1Com0 c0, .pinAWgm3Com0 c0, .pinAWgm5Com0 c0, .pinAWgm7Com0 c0,
            .pinBWgm1Com0 c0, .pinBWgm3Com0 c0, .pinBWgm5Com0 c0, .pinBWgm7Com0 c0,
            .pinAWgm1Com1 c0, .pinAWgm3Com1 c0,
            .pinBWgm1Com1 c0, .pinBWgm3Com1 c0, .pinBWgm5Com1 c0, .pinBWgm7Com1 c0],
      exec i s = .next s)

/-! ### The tick -/

/-- 42_waveform_tick.md sections 1 to 4 and 7 (R130, R131, R133 to R135, R137, R146, R147; decisions D7, D8, D10 to D12, D19):
the tick of Normal and of the reserved selectors, where WGM selects it: detection; synchronisation,
upward, overflow at 0xFF; the selected pin rows at a match with the value just synchronised, A before B;
the counter; the dispatcher case the pending flags select. -/
def Obligations.NormalTickRunsItsSteps : Prop :=
  ∀ (s : State) (i : Instr), i ∈ [Instr.tickNormal, .tickReserved4, .tickReserved6] →
    decodeWgm (s.controlB ++ s.controlA) = i →
    ∃ q r t : State,
      (if s.compareBufferA = s.count then
          exec (decodePin .a (s.controlB ++ s.controlA) s.count)
            { detected s with
              compareA := s.compareBufferA
              compareB := s.compareBufferB
              countingDownwards := false
              interruptFlags := detectedFlags s ||| if s.count = 0xFF then 0x01 else 0x00 }
        else .next
            { detected s with
              compareA := s.compareBufferA
              compareB := s.compareBufferB
              countingDownwards := false
              interruptFlags := detectedFlags s ||| if s.count = 0xFF then 0x01 else 0x00 })
        = .next q ∧
      (if s.compareBufferB = s.count then
          exec (decodePin .b (s.controlB ++ s.controlA) s.count) q
        else .next q) = .next r ∧
      exec (decodeIrq3 ((r.interruptFlags &&& r.interruptMask).extractLsb' 0 3))
        { r with count := s.count + 1 } = .next t ∧
      exec i s = .next t

/-- 42_waveform_tick.md sections 1 to 4 and 7 (R130, R131, R133, R134, R136, R146, R147; decisions D7 to D12): the tick of
CTC, where WGM selects it: as Normal, and the counter goes to 0 after a count equal to the compare-A
value just synchronised; pin tests on the latched count. -/
def Obligations.CtcTickRunsItsSteps : Prop :=
  ∀ s : State, decodeWgm (s.controlB ++ s.controlA) = .tickCtc →
    ∃ q r t : State,
      (if s.compareBufferA = s.count then
          exec (decodePin .a (s.controlB ++ s.controlA) s.count)
            { detected s with
              compareA := s.compareBufferA
              compareB := s.compareBufferB
              countingDownwards := false
              count := 0xFF
              interruptFlags := detectedFlags s ||| if s.count = 0xFF then 0x01 else 0x00 }
        else .next
            { detected s with
              compareA := s.compareBufferA
              compareB := s.compareBufferB
              countingDownwards := false
              interruptFlags := detectedFlags s ||| if s.count = 0xFF then 0x01 else 0x00 })
        = .next q ∧
      (if s.compareBufferB = s.count then
          exec (decodePin .b (s.controlB ++ s.controlA) s.count) q
        else .next q) = .next r ∧
      exec (decodeIrq3 ((r.interruptFlags &&& r.interruptMask).extractLsb' 0 3))
        { r with count := if s.count = s.compareBufferA then 0x00 else s.count + 1 } = .next t ∧
      exec .tickCtc s = .next t

/-- 42_waveform_tick.md sections 1 to 3, 5 and 7 (R130 to R133, R138 to R140, R146, R147; decisions D7 to D12): the tick of fast PWM,
where WGM selects it, with TOP 0xFF or the compare-A value latched before the synchronisation. -/
def Obligations.FastPwmTickRunsItsSteps : Prop :=
  ∀ (s : State) (i : Instr) (top : Byte),
    (i = .tickFastpwmFf ∧ top = 0xFF ∨ i = .tickFastpwmOcra ∧ top = s.compareA) →
    decodeWgm (s.controlB ++ s.controlA) = i →
    ∃ q r t : State,
      exec (decodePin .a (s.controlB ++ s.controlA) s.count)
        { detected s with
          compareA := if s.count = 0 then s.compareBufferA else s.compareA
          compareB := if s.count = 0 then s.compareBufferB else s.compareB
          countingDownwards := false
          count := if s.count = top then 0xFF else s.count
          interruptFlags := detectedFlags s ||| if s.count = top then 0x01 else 0x00 }
        = .next q ∧
      exec (decodePin .b (s.controlB ++ s.controlA) s.count) q = .next r ∧
      exec (decodeIrq3 ((r.interruptFlags &&& r.interruptMask).extractLsb' 0 3))
        { r with count := if s.count = top then 0x00 else s.count + 1 } = .next t ∧
      exec i s = .next t

/-- 42_waveform_tick.md sections 1 to 3, 6 and 7 (R130 to R133, R141 to R143, R146, R147; decisions D7 to D11, D13): the tick of
phase-correct PWM, where WGM selects it: at most one turn, overflow at the BOTTOM turn only, pin rows
with the direction after the turn. -/
def Obligations.PhaseCorrectTickRunsItsSteps : Prop :=
  ∀ (s : State) (i : Instr) (top : Byte) (down : Bool),
    (i = .tickPcpwmFf ∧ top = 0xFF ∨ i = .tickPcpwmOcra ∧ top = s.compareA) →
    decodeWgm (s.controlB ++ s.controlA) = i →
    down = (if s.countingDownwards then !decide (s.count = 0) else decide (s.count = top)) →
    ∃ q r t : State,
      exec (decodePin .a (s.controlB ++ s.controlA) s.count)
        { detected s with
          compareA := if s.count = top then s.compareBufferA else s.compareA
          compareB := if s.count = top then s.compareBufferB else s.compareB
          countingDownwards := down
          interruptFlags :=
            detectedFlags s ||| if s.countingDownwards = true ∧ s.count = 0 then 0x01 else 0x00 }
        = .next q ∧
      exec (decodePin .b (s.controlB ++ s.controlA) s.count) q = .next r ∧
      exec (decodeIrq3 ((r.interruptFlags &&& r.interruptMask).extractLsb' 0 3))
        { r with count := if down then s.count - 1 else s.count + 1 } = .next t ∧
      exec i s = .next t

/-- 42_waveform_tick.md sections 4 to 7 (R135 to R143, R146; decisions D7, D9, D12, D13): the counter and the direction after
each of the eight ticks. -/
def Obligations.TickCountAndDirection : Prop :=
  ∀ s : State,
    (∀ i ∈ [Instr.tickNormal, .tickReserved4, .tickReserved6, .tickFastpwmFf], ∃ t : State,
      exec i s = .next t ∧ t.count = s.count + 1 ∧ t.countingDownwards = false) ∧
    (∃ t : State, exec .tickCtc s = .next t ∧ t.countingDownwards = false ∧
      t.count = if s.count = s.compareBufferA then 0 else s.count + 1) ∧
    (∃ t : State, exec .tickFastpwmOcra s = .next t ∧ t.countingDownwards = false ∧
      t.count = if s.count = s.compareA then 0 else s.count + 1) ∧
    (∀ p ∈ [(Instr.tickPcpwmFf, (0xFF : Byte)), (.tickPcpwmOcra, s.compareA)], ∃ t : State,
      exec p.1 s = .next t ∧
      t.countingDownwards =
        (if s.countingDownwards then !decide (s.count = 0) else decide (s.count = p.2)) ∧
      t.count = if t.countingDownwards then s.count - 1 else s.count + 1)

/-- 42_waveform_tick.md sections 2, 4 to 7 and 44_interrupt_dispatch.md (R131, R135, R136, R138, R141, R186; 60 R203; decisions D10, D21,
D30): the flags after each tick: those detected in step 1, overflow by the mode's own condition, less
the one the dispatcher grants. -/
def Obligations.TickFlagsAfterDispatch : Prop :=
  ∀ s : State,
    (∀ i ∈ [Instr.tickNormal, .tickReserved4, .tickReserved6, .tickCtc, .tickFastpwmFf],
      ∃ t : State, exec i s = .next t ∧
        t.interruptFlags = dispatchedFlags (answerOf s).intEnabled
          (detectedFlags s ||| if s.count = 0xFF then 0x01 else 0x00) s.interruptMask) ∧
    (∃ t : State, exec .tickFastpwmOcra s = .next t ∧
        t.interruptFlags = dispatchedFlags (answerOf s).intEnabled
          (detectedFlags s ||| if s.count = s.compareA then 0x01 else 0x00) s.interruptMask) ∧
    (∀ i ∈ [Instr.tickPcpwmFf, .tickPcpwmOcra],
      ∃ t : State, exec i s = .next t ∧
        t.interruptFlags = dispatchedFlags (answerOf s).intEnabled
          (detectedFlags s ||| if s.countingDownwards = true ∧ s.count = 0 then 0x01 else 0x00)
          s.interruptMask)

/-- 42_waveform_tick.md section 3 (R133; TOP latched by D9): the instants at which each mode copies both buffers, and
that a tick leaves the active registers unchanged otherwise. -/
def Obligations.TickSynchronisesBuffersAtItsInstant : Prop :=
  ∀ s : State,
    (∀ i ∈ [Instr.tickNormal, .tickCtc, .tickReserved4, .tickReserved6], ∃ t : State,
      exec i s = .next t ∧ t.compareA = s.compareBufferA ∧ t.compareB = s.compareBufferB) ∧
    (∀ i ∈ [Instr.tickFastpwmFf, .tickFastpwmOcra], ∃ t : State, exec i s = .next t ∧
      t.compareA = (if s.count = 0 then s.compareBufferA else s.compareA) ∧
      t.compareB = (if s.count = 0 then s.compareBufferB else s.compareB)) ∧
    (∀ p ∈ [(Instr.tickPcpwmFf, (0xFF : Byte)), (.tickPcpwmOcra, s.compareA)], ∃ t : State,
      exec p.1 s = .next t ∧
      t.compareA = (if s.count = p.2 then s.compareBufferA else s.compareA) ∧
      t.compareB = (if s.count = p.2 then s.compareBufferB else s.compareB))

/-- 42_waveform_tick.md section 1 (R148, an inference the spec marks as derived): what no tick writes; a tick asks the
host exactly once and ends with the inhibit flag clear. -/
def Obligations.TickFrame : Prop :=
  ∀ (s : State), ∀ i ∈ tickRows, ∃ t : State, exec i s = .next t ∧ TickKeeps s t ∧
    t.inhibitNextCompareMatch = false ∧ t.asked = s.asked + 1 ∧ t.answers = s.answers.tail

/-- 60_exceptions.md section 3 (R206 (1), an inference the spec marks as derived; pin order by D11): the events of a tick
are the sink calls of pin A, those of pin B, then at most one request with at most one diagnostic. -/
def Obligations.TickEventOrder : Prop :=
  ∀ (s : State), ∀ i ∈ tickRows, ∃ (t : State) (callsA callsB req : List Event),
    exec i s = .next t ∧ t.events = s.events ++ callsA ++ callsB ++ req ∧
    (∀ e ∈ callsA, ∃ l, e = .sinkCall .a l) ∧ (∀ e ∈ callsB, ∃ l, e = .sinkCall .b l) ∧
    (req = [] ∨ ∃ v, req = requestEvents v (answerOf s).handled)

/-- 44_interrupt_dispatch.md (R186 corner case (f), R187, R188 (1)): with all three flags set and enabled and the host
enabled, a tick clears the overflow flag only and requests the overflow vector only. -/
def Obligations.SingleInterruptPerTick : Prop :=
  ∀ (s : State), ∀ i ∈ tickRows,
    s.interruptFlags &&& 0x07 = 0x07 → s.interruptMask &&& 0x07 = 0x07 →
    (answerOf s).intEnabled = true →
    ∃ (t : State) (calls : List Event), exec i s = .next t ∧
      t.interruptFlags = s.interruptFlags &&& 0xFE ∧
      t.events = s.events ++ calls ++ requestEvents .ovf (answerOf s).handled ∧
      ∀ e ∈ calls, ∃ X l, e = .sinkCall X l

/-- 70_reset_and_hazards.md section 2 (R237, an inference the spec marks as derived): an overflow set and granted in one
tick leaves the flag clear and requests the vector. -/
def Obligations.OverflowSetAndGrantedInOneTick : Prop :=
  ∀ (s : State), ∀ i ∈ [Instr.tickNormal, .tickCtc, .tickReserved4, .tickReserved6, .tickFastpwmFf],
    s.count = 0xFF → s.interruptMask.getLsbD 0 = true → (answerOf s).intEnabled = true →
    ∃ t : State, exec i s = .next t ∧ t.interruptFlags.getLsbD 0 = false ∧
      Event.irqRequest .ovf ∈ t.events

/-- 42_waveform_tick.md section 4 (R137, the spec's own decision D19): the reserved selectors run as Normal. -/
def Obligations.ReservedSelectorsRunAsNormal : Prop :=
  ∀ s : State, ∃ t : State, exec .tickNormal s = .next t ∧
    exec .tickReserved4 s = .next t ∧ exec .tickReserved6 s = .next t

/-! ### The interrupt dispatcher -/

/-- 30_encoding.md section 5 (R82; flag positions by decision D4) and 44_interrupt_dispatch.md (R185, R186): the
fixed-priority selector, lowest bit first, over all eight values of `P`; what each selected row does when the
host answers that interrupts are enabled and when it answers that they are not; and that every tick is the row
selected by `P = (interruptFlags & interruptMask)[2:0]`, run in the state after step 3, in which the host has
not been asked yet. That a row uses up one answer is the model's (log 5), and that `exec` of a row performs it
in every state is too (log 9). -/
def Obligations.DispatchSelectorIsFixedPriority : Prop :=
  (∀ p ∈ [1#3, 3#3, 5#3, 7#3], decodeIrq3 p = .dispatchOvf) ∧
  (∀ p ∈ [2#3, 6#3], decodeIrq3 p = .dispatchCompa) ∧
  decodeIrq3 4#3 = .dispatchCompb ∧ decodeIrq3 0#3 = .dispatchNone ∧
  ∀ s : State,
    exec .dispatchNone s = .next (askedOnce s) ∧
    ((answerOf s).intEnabled = true →
      (∃ t : State, exec .dispatchOvf s = .next t ∧
        t.interruptFlags = s.interruptFlags &&& 0xFE ∧
        t.events = s.events ++ requestEvents .ovf (answerOf s).handled) ∧
      (∃ t : State, exec .dispatchCompa s = .next t ∧
        t.interruptFlags = s.interruptFlags &&& 0xFD ∧
        t.events = s.events ++ requestEvents .compa (answerOf s).handled) ∧
      (∃ t : State, exec .dispatchCompb s = .next t ∧
        t.interruptFlags = s.interruptFlags &&& 0xFB ∧
        t.events = s.events ++ requestEvents .compb (answerOf s).handled)) ∧
    ((answerOf s).intEnabled = false →
      ∀ i ∈ [Instr.dispatchOvf, .dispatchCompa, .dispatchCompb], exec i s = .next (askedOnce s)) ∧
    (∀ m : Mode, ∃ r t : State,
      r = advanceCounter (handleMode m s.count (detected s)) ∧
      r.interruptMask = s.interruptMask ∧ r.asked = s.asked ∧ r.answers = s.answers ∧
      exec (decodeIrq3 ((r.interruptFlags &&& r.interruptMask).extractLsb' 0 3)) r = .next t ∧
      exec (tickOf m) s = .next t)

/-- 44_interrupt_dispatch.md (R185 to R187; decision D21): a dispatcher case asks the host once; enabled, it clears
its one flag and requests its vector, with a diagnostic if there is no handler; disabled, it does
nothing else. -/
def Obligations.DispatchCasesGrantOneSource : Prop :=
  ∀ s : State,
    exec .dispatchNone s = .next (askedOnce s) ∧
    (∀ p ∈ [(Instr.dispatchOvf, Source.ovf, (0xFE : Byte)), (.dispatchCompa, .compa, 0xFD),
            (.dispatchCompb, .compb, 0xFB)],
      exec p.1 s = .next
        (if (answerOf s).intEnabled then
          { askedOnce s with
            interruptFlags := s.interruptFlags &&& p.2.2
            events := s.events ++ requestEvents p.2.1 (answerOf s).handled }
        else askedOnce s))

/-! ### The prescaler -/

/-- 43_prescaler.md (R171; field position by decision D1): ADVANCE runs the clock-select row that the control word
selects. -/
def Obligations.AdvanceRunsSelectedClockRow : Prop :=
  ∀ (s : State) (n k : Nat),
    decodeHcw 0x2000 n k = some (.advance n) ∧
    ∃ t : State, exec (decodeCs (s.controlB ++ s.controlA) n) s = .next t ∧
      exec (.advance n) s = .next t

/-- R173: with CS = 0 no tick runs, the remainder is discarded, and nothing else changes. -/
def Obligations.StoppedClockDiscardsRemainder : Prop :=
  ∀ (s : State) (n : Nat),
    exec (.clkStop n) s = .next { s with excessTicks := 0, result := .ok } ∧
    (s.controlB &&& 0x07 = 0x00 →
      exec (.advance n) s = .next { s with excessTicks := 0, result := .ok })

/-- 43_prescaler.md (R170, R172: the accumulate-and-carry reading chosen in conflict C1, with decision D34; CS
position by decision D1; log 14): ADVANCE with CS 1 to 5 runs the row of its divider `d`; as long as `d` host
ticks are available one tick of the selected mode runs and consumes `d`; what is left is carried. -/
def Obligations.RunningClockConsumesDividerPerTick : Prop :=
  ∀ (s t : State) (n : Nat),
    exec (decodeWgm (s.controlB ++ s.controlA)) s = .next t →
    ∀ p ∈ [(Instr.clkDiv1, 1, (0x01 : Byte)), (.clkDiv8, 8, 0x02), (.clkDiv64, 64, 0x03),
           (.clkDiv256, 256, 0x04), (.clkDiv1024, 1024, 0x05)],
      (s.controlB &&& 0x07 = p.2.2 → exec (.advance n) s = exec (p.1 n) s) ∧
      (s.excessTicks + n < p.2.1 →
        exec (p.1 n) s = .next { s with excessTicks := s.excessTicks + n, result := .ok }) ∧
      (p.2.1 ≤ s.excessTicks + n →
        exec (p.1 n) s = exec (p.1 0) { t with excessTicks := s.excessTicks + n - p.2.1 })

/-- 43_prescaler.md (R170, R172, R175 (2), (3); 10_state.md R33; conflict C1, decision D34, log 14): the
remainder and the number of ticks of a running ADVANCE; every tick asks the host once. -/
def Obligations.RunningClockTickCountAndRemainder : Prop :=
  ∀ (s : State) (n : Nat),
    ∀ p ∈ [(Instr.clkDiv1, 1), (.clkDiv8, 8), (.clkDiv64, 64), (.clkDiv256, 256),
           (.clkDiv1024, 1024)],
      ∃ t : State, exec (p.1 n) s = .next t ∧ t.result = .ok ∧
        t.excessTicks = (s.excessTicks + n) % p.2 ∧ t.excessTicks < p.2 ∧
        t.asked = s.asked + (s.excessTicks + n) / p.2

/-- 43_prescaler.md (R174; that nothing changes is decision D20; log 7): an external clock makes ADVANCE answer
ConfigError with the clock-select value, and no field of `T` changes. -/
def Obligations.ExternalClockIsConfigError : Prop :=
  ∀ (s : State) (n : Nat),
    exec (.clkExt6 n) s = .next { s with result := .configError 6 } ∧
    exec (.clkExt7 n) s = .next { s with result := .configError 7 } ∧
    (s.controlB &&& 0x07 = 0x06 →
      exec (.advance n) s = .next { s with result := .configError 6 }) ∧
    (s.controlB &&& 0x07 = 0x07 →
      exec (.advance n) s = .next { s with result := .configError 7 })

/-- 43_prescaler.md (R175 (1), an inference the spec marks as derived from R172; conflict C1, decision D34, log
14): `ADV a` then `ADV b` leaves the same state, events included, as `ADV (a + b)`. -/
def Obligations.AdvanceSplits : Prop :=
  ∀ (s : State) (a b : Nat), ∃ t u : State,
    exec (.advance a) s = .next t ∧ exec (.advance b) t = .next u ∧
    exec (.advance (a + b)) s = .next u

/-! ### Forced output compare -/

/-- 42_waveform_tick.md section 8 (R149, the spec's own decision D17): FOC runs the selected pins' rows, A before B, in the
non-PWM modes, with the equality test only under the parameter; in PWM modes it does nothing. -/
def Obligations.ForcedCompareActsInNonPwmModesOnly : Prop :=
  ∀ (s : State) (a b : Bool) (n k : Nat),
    decodeHcw (0x3000 ||| (if a then 0x0100 else 0) ||| (if b then 0x0200 else 0)) n k
      = some (.foc a b) ∧
    (s.controlA.getLsbD 0 = true → exec (.foc a b) s = .next s) ∧
    (s.controlA.getLsbD 0 = false →
      ∃ q r : State,
        (if a = true ∧ (s.params.focEqualityGated = false ∨ s.compareA = s.count) then
            exec (decodePin .a (s.controlB ++ s.controlA) s.count) s
          else .next s) = .next q ∧
        (if b = true ∧ (s.params.focEqualityGated = false ∨ s.compareB = s.count) then
            exec (decodePin .b (s.controlB ++ s.controlA) s.count) q
          else .next q) = .next r ∧
        exec (.foc a b) s = .next r)

/-! ### Encoding -/

/-- 30_encoding.md section 2 (R74, R75): the mode selector is assembled as `((controlB >> 3) & 1) * 4 + (controlA & 3)`. -/
def Obligations.ModeSelectorIsAssembledFromTwoRegisters : Prop :=
  ∀ a b : Byte,
    some (decodeWgm (b ++ a)) = tickRows[((b.toNat >>> 3) &&& 1) * 4 + (a.toNat &&& 3)]?

/-- 30_encoding.md sections 2 and 4 (R76, R81; field positions by decisions D1, D2): the clock select is `controlB[2:0]`, and
the pin rows are selected by WGM and by `controlA[7:6]` for pin A, `controlA[5:4]` for pin B. -/
def Obligations.ClockAndComFieldsSelectTheirRows : Prop :=
  ∀ (a b c0 : Byte) (n : Nat),
    some (decodeCs (b ++ a) n) = (clockRows n)[b.toNat &&& 7]? ∧
    some (decodePin .a (b ++ a) c0) =
      (pinARows c0)[4 * (((b.toNat >>> 3) &&& 1) * 4 + (a.toNat &&& 3)) + (a.toNat >>> 6)]? ∧
    some (decodePin .b (b ++ a) c0) =
      (pinBRows c0)[4 * (((b.toNat >>> 3) &&& 1) * 4 + (a.toNat &&& 3)) +
        ((a.toNat >>> 4) &&& 3)]?

/-- 30_encoding.md section 7 (R88): some command words written out bit by bit, and some words that are no command. -/
def Obligations.CommandWordsDecodeAsWritten : Prop :=
  decodeHcw 0b0000_0110_00000000 0 0 = some .rdFlags ∧
  decodeHcw 0b0001_0000_10000011 0 0 = some (.wrCtrla 0x83) ∧
  decodeHcw 0b0010_0000_00000000 12 0 = some (.advance 12) ∧
  decodeHcw 0b0011_0010_00000000 0 0 = some (.foc false true) ∧
  decodeHcw 0b0100_0001_00000000 0 5 = some (.attachSink .b 5) ∧
  decodeHcw 0b0101_0000_00000000 0 0 = some .reset ∧
  decodeHcw 0b0000_0111_00000000 0 0 = none ∧
  decodeHcw 0b0110_0000_00000000 0 0 = none ∧
  decodeWgm 0b0000_1000_0000_0011 = .tickFastpwmOcra ∧
  decodeCs 0b0000_0010_0000_0000 5 = .clkDiv8 5 ∧
  decodePin .a 0b0000_1000_0100_0001 9 = .pinAWgm5Com1 9 ∧
  decodeIrq3 0b110 = .dispatchCompa

/-- 30_encoding.md sections 6 and 7 (R83, R88): the words that fit none of the eighteen patterns, and no others, are no
command, and a step refuses them. -/
def Obligations.WordsOutsideThePatternsAreRefused : Prop :=
  ∀ (c : HostCommand),
    (c.decode = none ↔ c.wf = false) ∧
    ∀ (s : State) (rest : List HostCommand), s.pending = c :: rest → c.wf = false →
      step s = .refused (.notACommand c.word)

/-- 30_encoding.md (R70 to R92): decoding the encoding of any instruction, with any operands, gives it back. -/
def Obligations.DecodeOfEncodeIsIdentity : Prop :=
  ∀ i : Instr, decode (encode i).format (encode i).word (encode i).beside = some i

/-- 30_encoding.md section 7 (R88): a command word that decodes is the encoding of its command, but for the ignored data
byte of a read (log 16). -/
def Obligations.CommandWordIsItsEncoding : Prop :=
  ∀ (w : Word16) (n k : Nat) (i : Instr), decodeHcw w n k = some i →
    i.isCommand = true ∧ (encode i).format = .hcw ∧
    (encode i).word = if w &&& 0xF000 = 0 then w &&& 0xFF00 else w

/-- 30_encoding.md section 8 (R90, decision D33): SETMODE expands to two writes after which the fields have the values
named. -/
def Obligations.SetModeSelectsItsFields : Prop :=
  ∀ (s : State) (w ca cb cs : Nat), (Pseudo.setMode w ca cb cs).wf = true →
    ∃ (i j : Instr) (t u : State), (Pseudo.setMode w ca cb cs).expand = [i, j] ∧
      exec i s = .next t ∧ exec j t = .next u ∧
      u = { s with controlA := u.controlA, controlB := u.controlB } ∧
      some (decodeWgm (u.controlB ++ u.controlA)) = tickRows[w]? ∧
      u.controlA.toNat / 64 = ca ∧ u.controlA.toNat / 16 % 4 = cb ∧ u.controlB.toNat % 8 = cs

/-! ### The step -/

/-- 00_scope.md section 5 (R8) and 60_exceptions.md section 1 (R202); log 1, log 8: a step is the pending command, decoded and run, with
its events and result empty at its start. -/
def Obligations.StepRunsThePendingCommand : Prop :=
  ∀ (s : State) (c : HostCommand) (rest : List HostCommand) (i : Instr),
    s.pending = c :: rest → decodeHcw c.word c.ticks c.sink = some i →
    step s = exec i { s with pending := rest, events := [], result := .noResult }

/-- 10_state.md section 2 (R21) and 70_reset_and_hazards.md section 4 (R251); the model's choice of log 2: with no command nothing
happens. -/
def Obligations.StepWithoutCommandChangesNothing : Prop :=
  ∀ s : State, s.pending = [] → step s = .next s

/-- 60_exceptions.md section 1 (R202): every instruction has a next state in every state, so no command fails but by a
result. -/
def Obligations.EveryInstructionCompletes : Prop :=
  ∀ (i : Instr) (s : State), ∃ t : State, exec i s = .next t

/-! ### Invariants and whole-machine rules -/

/-- 10_state.md (R28, R32, R33): the reset state meets the invariant. -/
def Obligations.ResetMeetsTheInvariant : Prop := TimerInv State.reset

/-- 10_state.md (R28 bits 7:3 of the flags, R32 inhibit flag, R33 and R34 (3) remainder): every instruction and every
step keeps the invariant. -/
def Obligations.EveryStepKeepsTheInvariant : Prop :=
  (∀ (i : Instr) (s t : State), TimerInv s → exec i s = .next t → TimerInv t) ∧
  (∀ s t : State, TimerInv s → step s = .next t → TimerInv t)

/-- 00_scope.md section 4 (R7): no step changes a parameter (log 6). -/
def Obligations.ParametersNeverChange : Prop :=
  (∀ (i : Instr) (s t : State), exec i s = .next t → t.params = s.params) ∧
  (∀ s t : State, step s = .next t → t.params = s.params)

/-- 10_state.md sections 3 to 5 (R22, R23, R26, R27, R31): only the host's own command, and RESET, change a control
register, the mask, a buffer or a sink; no instruction touches the commands still pending. -/
def Obligations.HostRegistersChangeOnlyByTheirWrite : Prop :=
  ∀ (i : Instr) (s t : State), exec i s = .next t →
    t.pending = s.pending ∧
    (i ≠ .reset →
      (t.controlA ≠ s.controlA → i = .wrCtrla t.controlA) ∧
      (t.controlB ≠ s.controlB → i = .wrCtrlb t.controlB) ∧
      (t.interruptMask ≠ s.interruptMask → i = .wrMask t.interruptMask) ∧
      (t.compareBufferA ≠ s.compareBufferA → i = .wrCmpa t.compareBufferA) ∧
      (t.compareBufferB ≠ s.compareBufferB → i = .wrCmpb t.compareBufferB) ∧
      (t.outputPinSinkA ≠ s.outputPinSinkA →
        ∃ k, i = .attachSink .a k ∧ t.outputPinSinkA = some k) ∧
      (t.outputPinSinkB ≠ s.outputPinSinkB →
        ∃ k, i = .attachSink .b k ∧ t.outputPinSinkB = some k))

/-- 10_state.md section 6 (R34 (4); R25): the active compare registers change only by taking the buffers, and
only when a tick runs; no port write reaches them. -/
def Obligations.ActiveCompareChangesOnlyBySynchronisation : Prop :=
  ∀ (i : Instr) (s t : State), exec i s = .next t → i ≠ .reset →
    (t.compareA = s.compareA ∨ t.compareA = s.compareBufferA) ∧
    (t.compareB = s.compareB ∨ t.compareB = s.compareBufferB) ∧
    (t.asked = s.asked → t.compareA = s.compareA ∧ t.compareB = s.compareB)

/-- 10_state.md section 5 (R30): with COM = 0 for a pin no host command but RESET changes its level, however many ticks
it runs. -/
def Obligations.PinWithComZeroKeepsItsLevel : Prop :=
  ∀ (i : Instr) (s t : State), i.isCommand = true → i ≠ .reset → exec i s = .next t →
    (s.controlA &&& 0xC0 = 0 → t.outputPinStateA = s.outputPinStateA) ∧
    (s.controlA &&& 0x30 = 0 → t.outputPinStateB = s.outputPinStateB)

/-- 44_interrupt_dispatch.md (R189) and 40_register_ports.md (R116), inferences the spec marks as derived: no host
command but ADVANCE asks the host or requests an interrupt (the answers and their count are the model's, log 5). -/
def Obligations.OnlyAdvanceEvaluatesInterrupts : Prop :=
  ∀ (i : Instr) (s t : State), i.isCommand = true → (∀ n, i ≠ .advance n) →
    exec i s = .next t →
    t.asked = s.asked ∧ t.answers = s.answers ∧
    ∀ v, (Event.irqRequest v ∈ t.events → Event.irqRequest v ∈ s.events)

/-- 10_state.md section 5 (R31): the sinks are only observers: which sinks are bound changes no field but the sinks
themselves and the events. -/
def Obligations.SinksOnlyObserve : Prop :=
  ∀ (i : Instr) (s t : State) (x y : Option Nat), exec i s = .next t →
    ∃ t' : State, exec i { s with outputPinSinkA := x, outputPinSinkB := y } = .next t' ∧
      { t' with
        outputPinSinkA := t.outputPinSinkA
        outputPinSinkB := t.outputPinSinkB
        events := t.events } = t

/-- 44_interrupt_dispatch.md (R187): whether the host has a handler changes the events only, over any number of ticks. -/
def Obligations.HandlerAnswersOnlyObserve : Prop :=
  ∀ (i : Instr) (s t : State) (l : List HostAnswer),
    l.map HostAnswer.intEnabled = s.answers.map HostAnswer.intEnabled → exec i s = .next t →
    ∃ t' : State, exec i { s with answers := l } = .next t' ∧
      { t' with answers := t.answers, events := t.events } = t

/-! ### Periods -/

/-- 42_waveform_tick.md section 4 (R135 corner case (a), R137; ticks per host tick by conflict C1, log 14): in
Normal mode (and WGM 4, 6) under divider 1 the counter advances by the host ticks, modulo 256, whatever the
compare registers hold. -/
def Obligations.NormalCounterCountsHostTicks : Prop :=
  ∀ (s : State) (n : Nat),
    decodeWgm (s.controlB ++ s.controlA) ∈ [Instr.tickNormal, .tickReserved4, .tickReserved6] →
    s.controlB &&& 0x07 = 0x01 → s.excessTicks = 0 →
    ∃ t : State, exec (.advance n) s = .next t ∧ t.count = s.count + BitVec.ofNat 8 n

/-- 42_waveform_tick.md sections 4 and 5 (R136 corner case (a), R138 corner case (a); ticks per host tick by
conflict C1, log 14): CTC and fast PWM count 0 to TOP and back to 0 in TOP + 1 ticks. -/
def Obligations.ClearingModesHavePeriodTopPlusOne : Prop :=
  ∀ (s : State) (top : Byte) (n : Nat),
    (decodeWgm (s.controlB ++ s.controlA) = .tickFastpwmFf ∧ top = 0xFF ∨
      decodeWgm (s.controlB ++ s.controlA) ∈ [Instr.tickCtc, .tickFastpwmOcra] ∧
        top = s.compareA ∧ top = s.compareBufferA) →
    s.controlB &&& 0x07 = 0x01 → s.excessTicks = 0 → s.count = 0 →
    ∃ t : State, exec (.advance n) s = .next t ∧ t.count.toNat = n % (top.toNat + 1)

/-- 42_waveform_tick.md section 6 (R141 corner case (a); ticks per host tick by conflict C1, log 14):
phase-correct PWM with TOP at least 1 runs from BOTTOM up to TOP and back to BOTTOM in 2 * TOP ticks, again
about to turn upward. -/
def Obligations.PhaseCorrectHasPeriodTwiceTop : Prop :=
  ∀ (s : State) (top : Byte),
    (decodeWgm (s.controlB ++ s.controlA) = .tickPcpwmFf ∧ top = 0xFF ∨
      decodeWgm (s.controlB ++ s.controlA) = .tickPcpwmOcra ∧ top = s.compareA ∧
        top = s.compareBufferA) →
    1 ≤ top.toNat →
    s.controlB &&& 0x07 = 0x01 → s.excessTicks = 0 →
    s.count = 0 → s.countingDownwards = true →
    (∀ n, n ≤ top.toNat → ∃ t : State, exec (.advance n) s = .next t ∧ t.count.toNat = n) ∧
    (∀ n, n ≤ top.toNat → ∃ t : State, exec (.advance (top.toNat + n)) s = .next t ∧
      t.count.toNat = top.toNat - n ∧ (n ≠ 0 → t.countingDownwards = true))
end

