-- ==== Sys2Proof/Laws/State.lean ====
section
/-! SUPPORT. The fields each shared operation leaves alone: one simp lemma per field and operation, so
that no later proof unfolds an operation to see that a field is unchanged. -/

namespace Sys2Proof.Machine

variable (s : State)

@[simp] theorem emit_controlA (e : Event) : (emit e s).controlA = s.controlA := rfl
@[simp] theorem emit_controlB (e : Event) : (emit e s).controlB = s.controlB := rfl
@[simp] theorem emit_count (e : Event) : (emit e s).count = s.count := rfl
@[simp] theorem emit_compareA (e : Event) : (emit e s).compareA = s.compareA := rfl
@[simp] theorem emit_compareB (e : Event) : (emit e s).compareB = s.compareB := rfl
@[simp] theorem emit_compareBufferA (e : Event) : (emit e s).compareBufferA = s.compareBufferA := rfl
@[simp] theorem emit_compareBufferB (e : Event) : (emit e s).compareBufferB = s.compareBufferB := rfl
@[simp] theorem emit_interruptMask (e : Event) : (emit e s).interruptMask = s.interruptMask := rfl
@[simp] theorem emit_interruptFlags (e : Event) : (emit e s).interruptFlags = s.interruptFlags := rfl
@[simp] theorem emit_countingDownwards (e : Event) : (emit e s).countingDownwards = s.countingDownwards := rfl
@[simp] theorem emit_outputPinStateA (e : Event) : (emit e s).outputPinStateA = s.outputPinStateA := rfl
@[simp] theorem emit_outputPinStateB (e : Event) : (emit e s).outputPinStateB = s.outputPinStateB := rfl
@[simp] theorem emit_outputPinSinkA (e : Event) : (emit e s).outputPinSinkA = s.outputPinSinkA := rfl
@[simp] theorem emit_outputPinSinkB (e : Event) : (emit e s).outputPinSinkB = s.outputPinSinkB := rfl
@[simp] theorem emit_inhibitNextCompareMatch (e : Event) : (emit e s).inhibitNextCompareMatch = s.inhibitNextCompareMatch := rfl
@[simp] theorem emit_excessTicks (e : Event) : (emit e s).excessTicks = s.excessTicks := rfl
@[simp] theorem emit_params (e : Event) : (emit e s).params = s.params := rfl
@[simp] theorem emit_pending (e : Event) : (emit e s).pending = s.pending := rfl
@[simp] theorem emit_answers (e : Event) : (emit e s).answers = s.answers := rfl
@[simp] theorem emit_asked (e : Event) : (emit e s).asked = s.asked := rfl
@[simp] theorem emit_result (e : Event) : (emit e s).result = s.result := rfl

@[simp] theorem answer_controlA (r : Result) : (answer r s).controlA = s.controlA := rfl
@[simp] theorem answer_controlB (r : Result) : (answer r s).controlB = s.controlB := rfl
@[simp] theorem answer_count (r : Result) : (answer r s).count = s.count := rfl
@[simp] theorem answer_compareA (r : Result) : (answer r s).compareA = s.compareA := rfl
@[simp] theorem answer_compareB (r : Result) : (answer r s).compareB = s.compareB := rfl
@[simp] theorem answer_compareBufferA (r : Result) : (answer r s).compareBufferA = s.compareBufferA := rfl
@[simp] theorem answer_compareBufferB (r : Result) : (answer r s).compareBufferB = s.compareBufferB := rfl
@[simp] theorem answer_interruptMask (r : Result) : (answer r s).interruptMask = s.interruptMask := rfl
@[simp] theorem answer_interruptFlags (r : Result) : (answer r s).interruptFlags = s.interruptFlags := rfl
@[simp] theorem answer_countingDownwards (r : Result) : (answer r s).countingDownwards = s.countingDownwards := rfl
@[simp] theorem answer_outputPinStateA (r : Result) : (answer r s).outputPinStateA = s.outputPinStateA := rfl
@[simp] theorem answer_outputPinStateB (r : Result) : (answer r s).outputPinStateB = s.outputPinStateB := rfl
@[simp] theorem answer_outputPinSinkA (r : Result) : (answer r s).outputPinSinkA = s.outputPinSinkA := rfl
@[simp] theorem answer_outputPinSinkB (r : Result) : (answer r s).outputPinSinkB = s.outputPinSinkB := rfl
@[simp] theorem answer_inhibitNextCompareMatch (r : Result) : (answer r s).inhibitNextCompareMatch = s.inhibitNextCompareMatch := rfl
@[simp] theorem answer_excessTicks (r : Result) : (answer r s).excessTicks = s.excessTicks := rfl
@[simp] theorem answer_params (r : Result) : (answer r s).params = s.params := rfl
@[simp] theorem answer_pending (r : Result) : (answer r s).pending = s.pending := rfl
@[simp] theorem answer_answers (r : Result) : (answer r s).answers = s.answers := rfl
@[simp] theorem answer_asked (r : Result) : (answer r s).asked = s.asked := rfl
@[simp] theorem answer_events (r : Result) : (answer r s).events = s.events := rfl

@[simp] theorem raiseIf_controlA (c : Bool) (v : Source) : (raiseIf c v s).controlA = s.controlA := rfl
@[simp] theorem raiseIf_controlB (c : Bool) (v : Source) : (raiseIf c v s).controlB = s.controlB := rfl
@[simp] theorem raiseIf_count (c : Bool) (v : Source) : (raiseIf c v s).count = s.count := rfl
@[simp] theorem raiseIf_compareA (c : Bool) (v : Source) : (raiseIf c v s).compareA = s.compareA := rfl
@[simp] theorem raiseIf_compareB (c : Bool) (v : Source) : (raiseIf c v s).compareB = s.compareB := rfl
@[simp] theorem raiseIf_compareBufferA (c : Bool) (v : Source) : (raiseIf c v s).compareBufferA = s.compareBufferA := rfl
@[simp] theorem raiseIf_compareBufferB (c : Bool) (v : Source) : (raiseIf c v s).compareBufferB = s.compareBufferB := rfl
@[simp] theorem raiseIf_interruptMask (c : Bool) (v : Source) : (raiseIf c v s).interruptMask = s.interruptMask := rfl
@[simp] theorem raiseIf_countingDownwards (c : Bool) (v : Source) : (raiseIf c v s).countingDownwards = s.countingDownwards := rfl
@[simp] theorem raiseIf_outputPinStateA (c : Bool) (v : Source) : (raiseIf c v s).outputPinStateA = s.outputPinStateA := rfl
@[simp] theorem raiseIf_outputPinStateB (c : Bool) (v : Source) : (raiseIf c v s).outputPinStateB = s.outputPinStateB := rfl
@[simp] theorem raiseIf_outputPinSinkA (c : Bool) (v : Source) : (raiseIf c v s).outputPinSinkA = s.outputPinSinkA := rfl
@[simp] theorem raiseIf_outputPinSinkB (c : Bool) (v : Source) : (raiseIf c v s).outputPinSinkB = s.outputPinSinkB := rfl
@[simp] theorem raiseIf_inhibitNextCompareMatch (c : Bool) (v : Source) : (raiseIf c v s).inhibitNextCompareMatch = s.inhibitNextCompareMatch := rfl
@[simp] theorem raiseIf_excessTicks (c : Bool) (v : Source) : (raiseIf c v s).excessTicks = s.excessTicks := rfl
@[simp] theorem raiseIf_params (c : Bool) (v : Source) : (raiseIf c v s).params = s.params := rfl
@[simp] theorem raiseIf_pending (c : Bool) (v : Source) : (raiseIf c v s).pending = s.pending := rfl
@[simp] theorem raiseIf_answers (c : Bool) (v : Source) : (raiseIf c v s).answers = s.answers := rfl
@[simp] theorem raiseIf_asked (c : Bool) (v : Source) : (raiseIf c v s).asked = s.asked := rfl
@[simp] theorem raiseIf_events (c : Bool) (v : Source) : (raiseIf c v s).events = s.events := rfl
@[simp] theorem raiseIf_result (c : Bool) (v : Source) : (raiseIf c v s).result = s.result := rfl

@[simp] theorem clearFlags_controlA (m : Byte) : (clearFlags m s).controlA = s.controlA := rfl
@[simp] theorem clearFlags_controlB (m : Byte) : (clearFlags m s).controlB = s.controlB := rfl
@[simp] theorem clearFlags_count (m : Byte) : (clearFlags m s).count = s.count := rfl
@[simp] theorem clearFlags_compareA (m : Byte) : (clearFlags m s).compareA = s.compareA := rfl
@[simp] theorem clearFlags_compareB (m : Byte) : (clearFlags m s).compareB = s.compareB := rfl
@[simp] theorem clearFlags_compareBufferA (m : Byte) : (clearFlags m s).compareBufferA = s.compareBufferA := rfl
@[simp] theorem clearFlags_compareBufferB (m : Byte) : (clearFlags m s).compareBufferB = s.compareBufferB := rfl
@[simp] theorem clearFlags_interruptMask (m : Byte) : (clearFlags m s).interruptMask = s.interruptMask := rfl
@[simp] theorem clearFlags_countingDownwards (m : Byte) : (clearFlags m s).countingDownwards = s.countingDownwards := rfl
@[simp] theorem clearFlags_outputPinStateA (m : Byte) : (clearFlags m s).outputPinStateA = s.outputPinStateA := rfl
@[simp] theorem clearFlags_outputPinStateB (m : Byte) : (clearFlags m s).outputPinStateB = s.outputPinStateB := rfl
@[simp] theorem clearFlags_outputPinSinkA (m : Byte) : (clearFlags m s).outputPinSinkA = s.outputPinSinkA := rfl
@[simp] theorem clearFlags_outputPinSinkB (m : Byte) : (clearFlags m s).outputPinSinkB = s.outputPinSinkB := rfl
@[simp] theorem clearFlags_inhibitNextCompareMatch (m : Byte) : (clearFlags m s).inhibitNextCompareMatch = s.inhibitNextCompareMatch := rfl
@[simp] theorem clearFlags_excessTicks (m : Byte) : (clearFlags m s).excessTicks = s.excessTicks := rfl
@[simp] theorem clearFlags_params (m : Byte) : (clearFlags m s).params = s.params := rfl
@[simp] theorem clearFlags_pending (m : Byte) : (clearFlags m s).pending = s.pending := rfl
@[simp] theorem clearFlags_answers (m : Byte) : (clearFlags m s).answers = s.answers := rfl
@[simp] theorem clearFlags_asked (m : Byte) : (clearFlags m s).asked = s.asked := rfl
@[simp] theorem clearFlags_events (m : Byte) : (clearFlags m s).events = s.events := rfl
@[simp] theorem clearFlags_result (m : Byte) : (clearFlags m s).result = s.result := rfl

@[simp] theorem syncBuffers_controlA : (syncBuffers s).controlA = s.controlA := rfl
@[simp] theorem syncBuffers_controlB : (syncBuffers s).controlB = s.controlB := rfl
@[simp] theorem syncBuffers_count : (syncBuffers s).count = s.count := rfl
@[simp] theorem syncBuffers_compareBufferA : (syncBuffers s).compareBufferA = s.compareBufferA := rfl
@[simp] theorem syncBuffers_compareBufferB : (syncBuffers s).compareBufferB = s.compareBufferB := rfl
@[simp] theorem syncBuffers_interruptMask : (syncBuffers s).interruptMask = s.interruptMask := rfl
@[simp] theorem syncBuffers_interruptFlags : (syncBuffers s).interruptFlags = s.interruptFlags := rfl
@[simp] theorem syncBuffers_countingDownwards : (syncBuffers s).countingDownwards = s.countingDownwards := rfl
@[simp] theorem syncBuffers_outputPinStateA : (syncBuffers s).outputPinStateA = s.outputPinStateA := rfl
@[simp] theorem syncBuffers_outputPinStateB : (syncBuffers s).outputPinStateB = s.outputPinStateB := rfl
@[simp] theorem syncBuffers_outputPinSinkA : (syncBuffers s).outputPinSinkA = s.outputPinSinkA := rfl
@[simp] theorem syncBuffers_outputPinSinkB : (syncBuffers s).outputPinSinkB = s.outputPinSinkB := rfl
@[simp] theorem syncBuffers_inhibitNextCompareMatch : (syncBuffers s).inhibitNextCompareMatch = s.inhibitNextCompareMatch := rfl
@[simp] theorem syncBuffers_excessTicks : (syncBuffers s).excessTicks = s.excessTicks := rfl
@[simp] theorem syncBuffers_params : (syncBuffers s).params = s.params := rfl
@[simp] theorem syncBuffers_pending : (syncBuffers s).pending = s.pending := rfl
@[simp] theorem syncBuffers_answers : (syncBuffers s).answers = s.answers := rfl
@[simp] theorem syncBuffers_asked : (syncBuffers s).asked = s.asked := rfl
@[simp] theorem syncBuffers_events : (syncBuffers s).events = s.events := rfl
@[simp] theorem syncBuffers_result : (syncBuffers s).result = s.result := rfl

@[simp] theorem countUpward_controlA : (countUpward s).controlA = s.controlA := rfl
@[simp] theorem countUpward_controlB : (countUpward s).controlB = s.controlB := rfl
@[simp] theorem countUpward_count : (countUpward s).count = s.count := rfl
@[simp] theorem countUpward_compareA : (countUpward s).compareA = s.compareA := rfl
@[simp] theorem countUpward_compareB : (countUpward s).compareB = s.compareB := rfl
@[simp] theorem countUpward_compareBufferA : (countUpward s).compareBufferA = s.compareBufferA := rfl
@[simp] theorem countUpward_compareBufferB : (countUpward s).compareBufferB = s.compareBufferB := rfl
@[simp] theorem countUpward_interruptMask : (countUpward s).interruptMask = s.interruptMask := rfl
@[simp] theorem countUpward_interruptFlags : (countUpward s).interruptFlags = s.interruptFlags := rfl
@[simp] theorem countUpward_outputPinStateA : (countUpward s).outputPinStateA = s.outputPinStateA := rfl
@[simp] theorem countUpward_outputPinStateB : (countUpward s).outputPinStateB = s.outputPinStateB := rfl
@[simp] theorem countUpward_outputPinSinkA : (countUpward s).outputPinSinkA = s.outputPinSinkA := rfl
@[simp] theorem countUpward_outputPinSinkB : (countUpward s).outputPinSinkB = s.outputPinSinkB := rfl
@[simp] theorem countUpward_inhibitNextCompareMatch : (countUpward s).inhibitNextCompareMatch = s.inhibitNextCompareMatch := rfl
@[simp] theorem countUpward_excessTicks : (countUpward s).excessTicks = s.excessTicks := rfl
@[simp] theorem countUpward_params : (countUpward s).params = s.params := rfl
@[simp] theorem countUpward_pending : (countUpward s).pending = s.pending := rfl
@[simp] theorem countUpward_answers : (countUpward s).answers = s.answers := rfl
@[simp] theorem countUpward_asked : (countUpward s).asked = s.asked := rfl
@[simp] theorem countUpward_events : (countUpward s).events = s.events := rfl
@[simp] theorem countUpward_result : (countUpward s).result = s.result := rfl

@[simp] theorem forceTopIf_controlA (c : Bool) : (forceTopIf c s).controlA = s.controlA := rfl
@[simp] theorem forceTopIf_controlB (c : Bool) : (forceTopIf c s).controlB = s.controlB := rfl
@[simp] theorem forceTopIf_compareA (c : Bool) : (forceTopIf c s).compareA = s.compareA := rfl
@[simp] theorem forceTopIf_compareB (c : Bool) : (forceTopIf c s).compareB = s.compareB := rfl
@[simp] theorem forceTopIf_compareBufferA (c : Bool) : (forceTopIf c s).compareBufferA = s.compareBufferA := rfl
@[simp] theorem forceTopIf_compareBufferB (c : Bool) : (forceTopIf c s).compareBufferB = s.compareBufferB := rfl
@[simp] theorem forceTopIf_interruptMask (c : Bool) : (forceTopIf c s).interruptMask = s.interruptMask := rfl
@[simp] theorem forceTopIf_interruptFlags (c : Bool) : (forceTopIf c s).interruptFlags = s.interruptFlags := rfl
@[simp] theorem forceTopIf_countingDownwards (c : Bool) : (forceTopIf c s).countingDownwards = s.countingDownwards := rfl
@[simp] theorem forceTopIf_outputPinStateA (c : Bool) : (forceTopIf c s).outputPinStateA = s.outputPinStateA := rfl
@[simp] theorem forceTopIf_outputPinStateB (c : Bool) : (forceTopIf c s).outputPinStateB = s.outputPinStateB := rfl
@[simp] theorem forceTopIf_outputPinSinkA (c : Bool) : (forceTopIf c s).outputPinSinkA = s.outputPinSinkA := rfl
@[simp] theorem forceTopIf_outputPinSinkB (c : Bool) : (forceTopIf c s).outputPinSinkB = s.outputPinSinkB := rfl
@[simp] theorem forceTopIf_inhibitNextCompareMatch (c : Bool) : (forceTopIf c s).inhibitNextCompareMatch = s.inhibitNextCompareMatch := rfl
@[simp] theorem forceTopIf_excessTicks (c : Bool) : (forceTopIf c s).excessTicks = s.excessTicks := rfl
@[simp] theorem forceTopIf_params (c : Bool) : (forceTopIf c s).params = s.params := rfl
@[simp] theorem forceTopIf_pending (c : Bool) : (forceTopIf c s).pending = s.pending := rfl
@[simp] theorem forceTopIf_answers (c : Bool) : (forceTopIf c s).answers = s.answers := rfl
@[simp] theorem forceTopIf_asked (c : Bool) : (forceTopIf c s).asked = s.asked := rfl
@[simp] theorem forceTopIf_events (c : Bool) : (forceTopIf c s).events = s.events := rfl
@[simp] theorem forceTopIf_result (c : Bool) : (forceTopIf c s).result = s.result := rfl

@[simp] theorem advanceCounter_controlA : (advanceCounter s).controlA = s.controlA := rfl
@[simp] theorem advanceCounter_controlB : (advanceCounter s).controlB = s.controlB := rfl
@[simp] theorem advanceCounter_compareA : (advanceCounter s).compareA = s.compareA := rfl
@[simp] theorem advanceCounter_compareB : (advanceCounter s).compareB = s.compareB := rfl
@[simp] theorem advanceCounter_compareBufferA : (advanceCounter s).compareBufferA = s.compareBufferA := rfl
@[simp] theorem advanceCounter_compareBufferB : (advanceCounter s).compareBufferB = s.compareBufferB := rfl
@[simp] theorem advanceCounter_interruptMask : (advanceCounter s).interruptMask = s.interruptMask := rfl
@[simp] theorem advanceCounter_interruptFlags : (advanceCounter s).interruptFlags = s.interruptFlags := rfl
@[simp] theorem advanceCounter_countingDownwards : (advanceCounter s).countingDownwards = s.countingDownwards := rfl
@[simp] theorem advanceCounter_outputPinStateA : (advanceCounter s).outputPinStateA = s.outputPinStateA := rfl
@[simp] theorem advanceCounter_outputPinStateB : (advanceCounter s).outputPinStateB = s.outputPinStateB := rfl
@[simp] theorem advanceCounter_outputPinSinkA : (advanceCounter s).outputPinSinkA = s.outputPinSinkA := rfl
@[simp] theorem advanceCounter_outputPinSinkB : (advanceCounter s).outputPinSinkB = s.outputPinSinkB := rfl
@[simp] theorem advanceCounter_inhibitNextCompareMatch : (advanceCounter s).inhibitNextCompareMatch = s.inhibitNextCompareMatch := rfl
@[simp] theorem advanceCounter_excessTicks : (advanceCounter s).excessTicks = s.excessTicks := rfl
@[simp] theorem advanceCounter_params : (advanceCounter s).params = s.params := rfl
@[simp] theorem advanceCounter_pending : (advanceCounter s).pending = s.pending := rfl
@[simp] theorem advanceCounter_answers : (advanceCounter s).answers = s.answers := rfl
@[simp] theorem advanceCounter_asked : (advanceCounter s).asked = s.asked := rfl
@[simp] theorem advanceCounter_events : (advanceCounter s).events = s.events := rfl
@[simp] theorem advanceCounter_result : (advanceCounter s).result = s.result := rfl

@[simp] theorem takeAnswer_controlA : (takeAnswer s).controlA = s.controlA := rfl
@[simp] theorem takeAnswer_controlB : (takeAnswer s).controlB = s.controlB := rfl
@[simp] theorem takeAnswer_count : (takeAnswer s).count = s.count := rfl
@[simp] theorem takeAnswer_compareA : (takeAnswer s).compareA = s.compareA := rfl
@[simp] theorem takeAnswer_compareB : (takeAnswer s).compareB = s.compareB := rfl
@[simp] theorem takeAnswer_compareBufferA : (takeAnswer s).compareBufferA = s.compareBufferA := rfl
@[simp] theorem takeAnswer_compareBufferB : (takeAnswer s).compareBufferB = s.compareBufferB := rfl
@[simp] theorem takeAnswer_interruptMask : (takeAnswer s).interruptMask = s.interruptMask := rfl
@[simp] theorem takeAnswer_interruptFlags : (takeAnswer s).interruptFlags = s.interruptFlags := rfl
@[simp] theorem takeAnswer_countingDownwards : (takeAnswer s).countingDownwards = s.countingDownwards := rfl
@[simp] theorem takeAnswer_outputPinStateA : (takeAnswer s).outputPinStateA = s.outputPinStateA := rfl
@[simp] theorem takeAnswer_outputPinStateB : (takeAnswer s).outputPinStateB = s.outputPinStateB := rfl
@[simp] theorem takeAnswer_outputPinSinkA : (takeAnswer s).outputPinSinkA = s.outputPinSinkA := rfl
@[simp] theorem takeAnswer_outputPinSinkB : (takeAnswer s).outputPinSinkB = s.outputPinSinkB := rfl
@[simp] theorem takeAnswer_inhibitNextCompareMatch : (takeAnswer s).inhibitNextCompareMatch = s.inhibitNextCompareMatch := rfl
@[simp] theorem takeAnswer_excessTicks : (takeAnswer s).excessTicks = s.excessTicks := rfl
@[simp] theorem takeAnswer_params : (takeAnswer s).params = s.params := rfl
@[simp] theorem takeAnswer_pending : (takeAnswer s).pending = s.pending := rfl
@[simp] theorem takeAnswer_events : (takeAnswer s).events = s.events := rfl
@[simp] theorem takeAnswer_result : (takeAnswer s).result = s.result := rfl

@[simp] theorem beginCommand_controlA (rest : List HostCommand) : (beginCommand rest s).controlA = s.controlA := rfl
@[simp] theorem beginCommand_controlB (rest : List HostCommand) : (beginCommand rest s).controlB = s.controlB := rfl
@[simp] theorem beginCommand_count (rest : List HostCommand) : (beginCommand rest s).count = s.count := rfl
@[simp] theorem beginCommand_compareA (rest : List HostCommand) : (beginCommand rest s).compareA = s.compareA := rfl
@[simp] theorem beginCommand_compareB (rest : List HostCommand) : (beginCommand rest s).compareB = s.compareB := rfl
@[simp] theorem beginCommand_compareBufferA (rest : List HostCommand) : (beginCommand rest s).compareBufferA = s.compareBufferA := rfl
@[simp] theorem beginCommand_compareBufferB (rest : List HostCommand) : (beginCommand rest s).compareBufferB = s.compareBufferB := rfl
@[simp] theorem beginCommand_interruptMask (rest : List HostCommand) : (beginCommand rest s).interruptMask = s.interruptMask := rfl
@[simp] theorem beginCommand_interruptFlags (rest : List HostCommand) : (beginCommand rest s).interruptFlags = s.interruptFlags := rfl
@[simp] theorem beginCommand_countingDownwards (rest : List HostCommand) : (beginCommand rest s).countingDownwards = s.countingDownwards := rfl
@[simp] theorem beginCommand_outputPinStateA (rest : List HostCommand) : (beginCommand rest s).outputPinStateA = s.outputPinStateA := rfl
@[simp] theorem beginCommand_outputPinStateB (rest : List HostCommand) : (beginCommand rest s).outputPinStateB = s.outputPinStateB := rfl
@[simp] theorem beginCommand_outputPinSinkA (rest : List HostCommand) : (beginCommand rest s).outputPinSinkA = s.outputPinSinkA := rfl
@[simp] theorem beginCommand_outputPinSinkB (rest : List HostCommand) : (beginCommand rest s).outputPinSinkB = s.outputPinSinkB := rfl
@[simp] theorem beginCommand_inhibitNextCompareMatch (rest : List HostCommand) : (beginCommand rest s).inhibitNextCompareMatch = s.inhibitNextCompareMatch := rfl
@[simp] theorem beginCommand_excessTicks (rest : List HostCommand) : (beginCommand rest s).excessTicks = s.excessTicks := rfl
@[simp] theorem beginCommand_params (rest : List HostCommand) : (beginCommand rest s).params = s.params := rfl
@[simp] theorem beginCommand_answers (rest : List HostCommand) : (beginCommand rest s).answers = s.answers := rfl
@[simp] theorem beginCommand_asked (rest : List HostCommand) : (beginCommand rest s).asked = s.asked := rfl

@[simp] theorem writeLevel_controlA (X : Pin) (l : Bool) : (writeLevel X l s).controlA = s.controlA := by cases X <;> rfl
@[simp] theorem writeLevel_controlB (X : Pin) (l : Bool) : (writeLevel X l s).controlB = s.controlB := by cases X <;> rfl
@[simp] theorem writeLevel_count (X : Pin) (l : Bool) : (writeLevel X l s).count = s.count := by cases X <;> rfl
@[simp] theorem writeLevel_compareA (X : Pin) (l : Bool) : (writeLevel X l s).compareA = s.compareA := by cases X <;> rfl
@[simp] theorem writeLevel_compareB (X : Pin) (l : Bool) : (writeLevel X l s).compareB = s.compareB := by cases X <;> rfl
@[simp] theorem writeLevel_compareBufferA (X : Pin) (l : Bool) : (writeLevel X l s).compareBufferA = s.compareBufferA := by cases X <;> rfl
@[simp] theorem writeLevel_compareBufferB (X : Pin) (l : Bool) : (writeLevel X l s).compareBufferB = s.compareBufferB := by cases X <;> rfl
@[simp] theorem writeLevel_interruptMask (X : Pin) (l : Bool) : (writeLevel X l s).interruptMask = s.interruptMask := by cases X <;> rfl
@[simp] theorem writeLevel_interruptFlags (X : Pin) (l : Bool) : (writeLevel X l s).interruptFlags = s.interruptFlags := by cases X <;> rfl
@[simp] theorem writeLevel_countingDownwards (X : Pin) (l : Bool) : (writeLevel X l s).countingDownwards = s.countingDownwards := by cases X <;> rfl
@[simp] theorem writeLevel_outputPinSinkA (X : Pin) (l : Bool) : (writeLevel X l s).outputPinSinkA = s.outputPinSinkA := by cases X <;> rfl
@[simp] theorem writeLevel_outputPinSinkB (X : Pin) (l : Bool) : (writeLevel X l s).outputPinSinkB = s.outputPinSinkB := by cases X <;> rfl
@[simp] theorem writeLevel_inhibitNextCompareMatch (X : Pin) (l : Bool) : (writeLevel X l s).inhibitNextCompareMatch = s.inhibitNextCompareMatch := by cases X <;> rfl
@[simp] theorem writeLevel_excessTicks (X : Pin) (l : Bool) : (writeLevel X l s).excessTicks = s.excessTicks := by cases X <;> rfl
@[simp] theorem writeLevel_params (X : Pin) (l : Bool) : (writeLevel X l s).params = s.params := by cases X <;> rfl
@[simp] theorem writeLevel_pending (X : Pin) (l : Bool) : (writeLevel X l s).pending = s.pending := by cases X <;> rfl
@[simp] theorem writeLevel_answers (X : Pin) (l : Bool) : (writeLevel X l s).answers = s.answers := by cases X <;> rfl
@[simp] theorem writeLevel_asked (X : Pin) (l : Bool) : (writeLevel X l s).asked = s.asked := by cases X <;> rfl
@[simp] theorem writeLevel_events (X : Pin) (l : Bool) : (writeLevel X l s).events = s.events := by cases X <;> rfl
@[simp] theorem writeLevel_result (X : Pin) (l : Bool) : (writeLevel X l s).result = s.result := by cases X <;> rfl

@[simp] theorem bindSink_controlA (X : Pin) (k : Nat) : (bindSink X k s).controlA = s.controlA := by cases X <;> rfl
@[simp] theorem bindSink_controlB (X : Pin) (k : Nat) : (bindSink X k s).controlB = s.controlB := by cases X <;> rfl
@[simp] theorem bindSink_count (X : Pin) (k : Nat) : (bindSink X k s).count = s.count := by cases X <;> rfl
@[simp] theorem bindSink_compareA (X : Pin) (k : Nat) : (bindSink X k s).compareA = s.compareA := by cases X <;> rfl
@[simp] theorem bindSink_compareB (X : Pin) (k : Nat) : (bindSink X k s).compareB = s.compareB := by cases X <;> rfl
@[simp] theorem bindSink_compareBufferA (X : Pin) (k : Nat) : (bindSink X k s).compareBufferA = s.compareBufferA := by cases X <;> rfl
@[simp] theorem bindSink_compareBufferB (X : Pin) (k : Nat) : (bindSink X k s).compareBufferB = s.compareBufferB := by cases X <;> rfl
@[simp] theorem bindSink_interruptMask (X : Pin) (k : Nat) : (bindSink X k s).interruptMask = s.interruptMask := by cases X <;> rfl
@[simp] theorem bindSink_interruptFlags (X : Pin) (k : Nat) : (bindSink X k s).interruptFlags = s.interruptFlags := by cases X <;> rfl
@[simp] theorem bindSink_countingDownwards (X : Pin) (k : Nat) : (bindSink X k s).countingDownwards = s.countingDownwards := by cases X <;> rfl
@[simp] theorem bindSink_outputPinStateA (X : Pin) (k : Nat) : (bindSink X k s).outputPinStateA = s.outputPinStateA := by cases X <;> rfl
@[simp] theorem bindSink_outputPinStateB (X : Pin) (k : Nat) : (bindSink X k s).outputPinStateB = s.outputPinStateB := by cases X <;> rfl
@[simp] theorem bindSink_inhibitNextCompareMatch (X : Pin) (k : Nat) : (bindSink X k s).inhibitNextCompareMatch = s.inhibitNextCompareMatch := by cases X <;> rfl
@[simp] theorem bindSink_excessTicks (X : Pin) (k : Nat) : (bindSink X k s).excessTicks = s.excessTicks := by cases X <;> rfl
@[simp] theorem bindSink_params (X : Pin) (k : Nat) : (bindSink X k s).params = s.params := by cases X <;> rfl
@[simp] theorem bindSink_pending (X : Pin) (k : Nat) : (bindSink X k s).pending = s.pending := by cases X <;> rfl
@[simp] theorem bindSink_answers (X : Pin) (k : Nat) : (bindSink X k s).answers = s.answers := by cases X <;> rfl
@[simp] theorem bindSink_asked (X : Pin) (k : Nat) : (bindSink X k s).asked = s.asked := by cases X <;> rfl
@[simp] theorem bindSink_events (X : Pin) (k : Nat) : (bindSink X k s).events = s.events := by cases X <;> rfl
@[simp] theorem bindSink_result (X : Pin) (k : Nat) : (bindSink X k s).result = s.result := by cases X <;> rfl

@[simp] theorem detect_controlA (c0 : Byte) : (detect c0 s).controlA = s.controlA := by unfold detect; (repeat' split) <;> simp
@[simp] theorem detect_controlB (c0 : Byte) : (detect c0 s).controlB = s.controlB := by unfold detect; (repeat' split) <;> simp
@[simp] theorem detect_count (c0 : Byte) : (detect c0 s).count = s.count := by unfold detect; (repeat' split) <;> simp
@[simp] theorem detect_compareA (c0 : Byte) : (detect c0 s).compareA = s.compareA := by unfold detect; (repeat' split) <;> simp
@[simp] theorem detect_compareB (c0 : Byte) : (detect c0 s).compareB = s.compareB := by unfold detect; (repeat' split) <;> simp
@[simp] theorem detect_compareBufferA (c0 : Byte) : (detect c0 s).compareBufferA = s.compareBufferA := by unfold detect; (repeat' split) <;> simp
@[simp] theorem detect_compareBufferB (c0 : Byte) : (detect c0 s).compareBufferB = s.compareBufferB := by unfold detect; (repeat' split) <;> simp
@[simp] theorem detect_interruptMask (c0 : Byte) : (detect c0 s).interruptMask = s.interruptMask := by unfold detect; (repeat' split) <;> simp
@[simp] theorem detect_countingDownwards (c0 : Byte) : (detect c0 s).countingDownwards = s.countingDownwards := by unfold detect; (repeat' split) <;> simp
@[simp] theorem detect_outputPinStateA (c0 : Byte) : (detect c0 s).outputPinStateA = s.outputPinStateA := by unfold detect; (repeat' split) <;> simp
@[simp] theorem detect_outputPinStateB (c0 : Byte) : (detect c0 s).outputPinStateB = s.outputPinStateB := by unfold detect; (repeat' split) <;> simp
@[simp] theorem detect_outputPinSinkA (c0 : Byte) : (detect c0 s).outputPinSinkA = s.outputPinSinkA := by unfold detect; (repeat' split) <;> simp
@[simp] theorem detect_outputPinSinkB (c0 : Byte) : (detect c0 s).outputPinSinkB = s.outputPinSinkB := by unfold detect; (repeat' split) <;> simp
@[simp] theorem detect_excessTicks (c0 : Byte) : (detect c0 s).excessTicks = s.excessTicks := by unfold detect; (repeat' split) <;> simp
@[simp] theorem detect_params (c0 : Byte) : (detect c0 s).params = s.params := by unfold detect; (repeat' split) <;> simp
@[simp] theorem detect_pending (c0 : Byte) : (detect c0 s).pending = s.pending := by unfold detect; (repeat' split) <;> simp
@[simp] theorem detect_answers (c0 : Byte) : (detect c0 s).answers = s.answers := by unfold detect; (repeat' split) <;> simp
@[simp] theorem detect_asked (c0 : Byte) : (detect c0 s).asked = s.asked := by unfold detect; (repeat' split) <;> simp
@[simp] theorem detect_events (c0 : Byte) : (detect c0 s).events = s.events := by unfold detect; (repeat' split) <;> simp
@[simp] theorem detect_result (c0 : Byte) : (detect c0 s).result = s.result := by unfold detect; (repeat' split) <;> simp

@[simp] theorem notify_controlA (X : Pin) (l : Bool) : (notify X l s).controlA = s.controlA := by unfold notify; (repeat' split) <;> simp
@[simp] theorem notify_controlB (X : Pin) (l : Bool) : (notify X l s).controlB = s.controlB := by unfold notify; (repeat' split) <;> simp
@[simp] theorem notify_count (X : Pin) (l : Bool) : (notify X l s).count = s.count := by unfold notify; (repeat' split) <;> simp
@[simp] theorem notify_compareA (X : Pin) (l : Bool) : (notify X l s).compareA = s.compareA := by unfold notify; (repeat' split) <;> simp
@[simp] theorem notify_compareB (X : Pin) (l : Bool) : (notify X l s).compareB = s.compareB := by unfold notify; (repeat' split) <;> simp
@[simp] theorem notify_compareBufferA (X : Pin) (l : Bool) : (notify X l s).compareBufferA = s.compareBufferA := by unfold notify; (repeat' split) <;> simp
@[simp] theorem notify_compareBufferB (X : Pin) (l : Bool) : (notify X l s).compareBufferB = s.compareBufferB := by unfold notify; (repeat' split) <;> simp
@[simp] theorem notify_interruptMask (X : Pin) (l : Bool) : (notify X l s).interruptMask = s.interruptMask := by unfold notify; (repeat' split) <;> simp
@[simp] theorem notify_interruptFlags (X : Pin) (l : Bool) : (notify X l s).interruptFlags = s.interruptFlags := by unfold notify; (repeat' split) <;> simp
@[simp] theorem notify_countingDownwards (X : Pin) (l : Bool) : (notify X l s).countingDownwards = s.countingDownwards := by unfold notify; (repeat' split) <;> simp
@[simp] theorem notify_outputPinStateA (X : Pin) (l : Bool) : (notify X l s).outputPinStateA = s.outputPinStateA := by unfold notify; (repeat' split) <;> simp
@[simp] theorem notify_outputPinStateB (X : Pin) (l : Bool) : (notify X l s).outputPinStateB = s.outputPinStateB := by unfold notify; (repeat' split) <;> simp
@[simp] theorem notify_outputPinSinkA (X : Pin) (l : Bool) : (notify X l s).outputPinSinkA = s.outputPinSinkA := by unfold notify; (repeat' split) <;> simp
@[simp] theorem notify_outputPinSinkB (X : Pin) (l : Bool) : (notify X l s).outputPinSinkB = s.outputPinSinkB := by unfold notify; (repeat' split) <;> simp
@[simp] theorem notify_inhibitNextCompareMatch (X : Pin) (l : Bool) : (notify X l s).inhibitNextCompareMatch = s.inhibitNextCompareMatch := by unfold notify; (repeat' split) <;> simp
@[simp] theorem notify_excessTicks (X : Pin) (l : Bool) : (notify X l s).excessTicks = s.excessTicks := by unfold notify; (repeat' split) <;> simp
@[simp] theorem notify_params (X : Pin) (l : Bool) : (notify X l s).params = s.params := by unfold notify; (repeat' split) <;> simp
@[simp] theorem notify_pending (X : Pin) (l : Bool) : (notify X l s).pending = s.pending := by unfold notify; (repeat' split) <;> simp
@[simp] theorem notify_answers (X : Pin) (l : Bool) : (notify X l s).answers = s.answers := by unfold notify; (repeat' split) <;> simp
@[simp] theorem notify_asked (X : Pin) (l : Bool) : (notify X l s).asked = s.asked := by unfold notify; (repeat' split) <;> simp
@[simp] theorem notify_result (X : Pin) (l : Bool) : (notify X l s).result = s.result := by unfold notify; (repeat' split) <;> simp

@[simp] theorem setHigh_controlA (X : Pin) : (setHigh X s).controlA = s.controlA := by unfold setHigh; (repeat' split) <;> simp
@[simp] theorem setHigh_controlB (X : Pin) : (setHigh X s).controlB = s.controlB := by unfold setHigh; (repeat' split) <;> simp
@[simp] theorem setHigh_count (X : Pin) : (setHigh X s).count = s.count := by unfold setHigh; (repeat' split) <;> simp
@[simp] theorem setHigh_compareA (X : Pin) : (setHigh X s).compareA = s.compareA := by unfold setHigh; (repeat' split) <;> simp
@[simp] theorem setHigh_compareB (X : Pin) : (setHigh X s).compareB = s.compareB := by unfold setHigh; (repeat' split) <;> simp
@[simp] theorem setHigh_compareBufferA (X : Pin) : (setHigh X s).compareBufferA = s.compareBufferA := by unfold setHigh; (repeat' split) <;> simp
@[simp] theorem setHigh_compareBufferB (X : Pin) : (setHigh X s).compareBufferB = s.compareBufferB := by unfold setHigh; (repeat' split) <;> simp
@[simp] theorem setHigh_interruptMask (X : Pin) : (setHigh X s).interruptMask = s.interruptMask := by unfold setHigh; (repeat' split) <;> simp
@[simp] theorem setHigh_interruptFlags (X : Pin) : (setHigh X s).interruptFlags = s.interruptFlags := by unfold setHigh; (repeat' split) <;> simp
@[simp] theorem setHigh_countingDownwards (X : Pin) : (setHigh X s).countingDownwards = s.countingDownwards := by unfold setHigh; (repeat' split) <;> simp
@[simp] theorem setHigh_outputPinSinkA (X : Pin) : (setHigh X s).outputPinSinkA = s.outputPinSinkA := by unfold setHigh; (repeat' split) <;> simp
@[simp] theorem setHigh_outputPinSinkB (X : Pin) : (setHigh X s).outputPinSinkB = s.outputPinSinkB := by unfold setHigh; (repeat' split) <;> simp
@[simp] theorem setHigh_inhibitNextCompareMatch (X : Pin) : (setHigh X s).inhibitNextCompareMatch = s.inhibitNextCompareMatch := by unfold setHigh; (repeat' split) <;> simp
@[simp] theorem setHigh_excessTicks (X : Pin) : (setHigh X s).excessTicks = s.excessTicks := by unfold setHigh; (repeat' split) <;> simp
@[simp] theorem setHigh_params (X : Pin) : (setHigh X s).params = s.params := by unfold setHigh; (repeat' split) <;> simp
@[simp] theorem setHigh_pending (X : Pin) : (setHigh X s).pending = s.pending := by unfold setHigh; (repeat' split) <;> simp
@[simp] theorem setHigh_answers (X : Pin) : (setHigh X s).answers = s.answers := by unfold setHigh; (repeat' split) <;> simp
@[simp] theorem setHigh_asked (X : Pin) : (setHigh X s).asked = s.asked := by unfold setHigh; (repeat' split) <;> simp
@[simp] theorem setHigh_result (X : Pin) : (setHigh X s).result = s.result := by unfold setHigh; (repeat' split) <;> simp

@[simp] theorem setLow_controlA (X : Pin) : (setLow X s).controlA = s.controlA := by unfold setLow; (repeat' split) <;> simp
@[simp] theorem setLow_controlB (X : Pin) : (setLow X s).controlB = s.controlB := by unfold setLow; (repeat' split) <;> simp
@[simp] theorem setLow_count (X : Pin) : (setLow X s).count = s.count := by unfold setLow; (repeat' split) <;> simp
@[simp] theorem setLow_compareA (X : Pin) : (setLow X s).compareA = s.compareA := by unfold setLow; (repeat' split) <;> simp
@[simp] theorem setLow_compareB (X : Pin) : (setLow X s).compareB = s.compareB := by unfold setLow; (repeat' split) <;> simp
@[simp] theorem setLow_compareBufferA (X : Pin) : (setLow X s).compareBufferA = s.compareBufferA := by unfold setLow; (repeat' split) <;> simp
@[simp] theorem setLow_compareBufferB (X : Pin) : (setLow X s).compareBufferB = s.compareBufferB := by unfold setLow; (repeat' split) <;> simp
@[simp] theorem setLow_interruptMask (X : Pin) : (setLow X s).interruptMask = s.interruptMask := by unfold setLow; (repeat' split) <;> simp
@[simp] theorem setLow_interruptFlags (X : Pin) : (setLow X s).interruptFlags = s.interruptFlags := by unfold setLow; (repeat' split) <;> simp
@[simp] theorem setLow_countingDownwards (X : Pin) : (setLow X s).countingDownwards = s.countingDownwards := by unfold setLow; (repeat' split) <;> simp
@[simp] theorem setLow_outputPinSinkA (X : Pin) : (setLow X s).outputPinSinkA = s.outputPinSinkA := by unfold setLow; (repeat' split) <;> simp
@[simp] theorem setLow_outputPinSinkB (X : Pin) : (setLow X s).outputPinSinkB = s.outputPinSinkB := by unfold setLow; (repeat' split) <;> simp
@[simp] theorem setLow_inhibitNextCompareMatch (X : Pin) : (setLow X s).inhibitNextCompareMatch = s.inhibitNextCompareMatch := by unfold setLow; (repeat' split) <;> simp
@[simp] theorem setLow_excessTicks (X : Pin) : (setLow X s).excessTicks = s.excessTicks := by unfold setLow; (repeat' split) <;> simp
@[simp] theorem setLow_params (X : Pin) : (setLow X s).params = s.params := by unfold setLow; (repeat' split) <;> simp
@[simp] theorem setLow_pending (X : Pin) : (setLow X s).pending = s.pending := by unfold setLow; (repeat' split) <;> simp
@[simp] theorem setLow_answers (X : Pin) : (setLow X s).answers = s.answers := by unfold setLow; (repeat' split) <;> simp
@[simp] theorem setLow_asked (X : Pin) : (setLow X s).asked = s.asked := by unfold setLow; (repeat' split) <;> simp
@[simp] theorem setLow_result (X : Pin) : (setLow X s).result = s.result := by unfold setLow; (repeat' split) <;> simp

@[simp] theorem toggle_controlA (X : Pin) : (toggle X s).controlA = s.controlA := by simp [toggle]
@[simp] theorem toggle_controlB (X : Pin) : (toggle X s).controlB = s.controlB := by simp [toggle]
@[simp] theorem toggle_count (X : Pin) : (toggle X s).count = s.count := by simp [toggle]
@[simp] theorem toggle_compareA (X : Pin) : (toggle X s).compareA = s.compareA := by simp [toggle]
@[simp] theorem toggle_compareB (X : Pin) : (toggle X s).compareB = s.compareB := by simp [toggle]
@[simp] theorem toggle_compareBufferA (X : Pin) : (toggle X s).compareBufferA = s.compareBufferA := by simp [toggle]
@[simp] theorem toggle_compareBufferB (X : Pin) : (toggle X s).compareBufferB = s.compareBufferB := by simp [toggle]
@[simp] theorem toggle_interruptMask (X : Pin) : (toggle X s).interruptMask = s.interruptMask := by simp [toggle]
@[simp] theorem toggle_interruptFlags (X : Pin) : (toggle X s).interruptFlags = s.interruptFlags := by simp [toggle]
@[simp] theorem toggle_countingDownwards (X : Pin) : (toggle X s).countingDownwards = s.countingDownwards := by simp [toggle]
@[simp] theorem toggle_outputPinSinkA (X : Pin) : (toggle X s).outputPinSinkA = s.outputPinSinkA := by simp [toggle]
@[simp] theorem toggle_outputPinSinkB (X : Pin) : (toggle X s).outputPinSinkB = s.outputPinSinkB := by simp [toggle]
@[simp] theorem toggle_inhibitNextCompareMatch (X : Pin) : (toggle X s).inhibitNextCompareMatch = s.inhibitNextCompareMatch := by simp [toggle]
@[simp] theorem toggle_excessTicks (X : Pin) : (toggle X s).excessTicks = s.excessTicks := by simp [toggle]
@[simp] theorem toggle_params (X : Pin) : (toggle X s).params = s.params := by simp [toggle]
@[simp] theorem toggle_pending (X : Pin) : (toggle X s).pending = s.pending := by simp [toggle]
@[simp] theorem toggle_answers (X : Pin) : (toggle X s).answers = s.answers := by simp [toggle]
@[simp] theorem toggle_asked (X : Pin) : (toggle X s).asked = s.asked := by simp [toggle]
@[simp] theorem toggle_result (X : Pin) : (toggle X s).result = s.result := by simp [toggle]

@[simp] theorem nonPwmAction_controlA (X : Pin) (m : Com) : (nonPwmAction X m s).controlA = s.controlA := by cases m <;> simp [nonPwmAction]
@[simp] theorem nonPwmAction_controlB (X : Pin) (m : Com) : (nonPwmAction X m s).controlB = s.controlB := by cases m <;> simp [nonPwmAction]
@[simp] theorem nonPwmAction_count (X : Pin) (m : Com) : (nonPwmAction X m s).count = s.count := by cases m <;> simp [nonPwmAction]
@[simp] theorem nonPwmAction_compareA (X : Pin) (m : Com) : (nonPwmAction X m s).compareA = s.compareA := by cases m <;> simp [nonPwmAction]
@[simp] theorem nonPwmAction_compareB (X : Pin) (m : Com) : (nonPwmAction X m s).compareB = s.compareB := by cases m <;> simp [nonPwmAction]
@[simp] theorem nonPwmAction_compareBufferA (X : Pin) (m : Com) : (nonPwmAction X m s).compareBufferA = s.compareBufferA := by cases m <;> simp [nonPwmAction]
@[simp] theorem nonPwmAction_compareBufferB (X : Pin) (m : Com) : (nonPwmAction X m s).compareBufferB = s.compareBufferB := by cases m <;> simp [nonPwmAction]
@[simp] theorem nonPwmAction_interruptMask (X : Pin) (m : Com) : (nonPwmAction X m s).interruptMask = s.interruptMask := by cases m <;> simp [nonPwmAction]
@[simp] theorem nonPwmAction_interruptFlags (X : Pin) (m : Com) : (nonPwmAction X m s).interruptFlags = s.interruptFlags := by cases m <;> simp [nonPwmAction]
@[simp] theorem nonPwmAction_countingDownwards (X : Pin) (m : Com) : (nonPwmAction X m s).countingDownwards = s.countingDownwards := by cases m <;> simp [nonPwmAction]
@[simp] theorem nonPwmAction_outputPinSinkA (X : Pin) (m : Com) : (nonPwmAction X m s).outputPinSinkA = s.outputPinSinkA := by cases m <;> simp [nonPwmAction]
@[simp] theorem nonPwmAction_outputPinSinkB (X : Pin) (m : Com) : (nonPwmAction X m s).outputPinSinkB = s.outputPinSinkB := by cases m <;> simp [nonPwmAction]
@[simp] theorem nonPwmAction_inhibitNextCompareMatch (X : Pin) (m : Com) : (nonPwmAction X m s).inhibitNextCompareMatch = s.inhibitNextCompareMatch := by cases m <;> simp [nonPwmAction]
@[simp] theorem nonPwmAction_excessTicks (X : Pin) (m : Com) : (nonPwmAction X m s).excessTicks = s.excessTicks := by cases m <;> simp [nonPwmAction]
@[simp] theorem nonPwmAction_params (X : Pin) (m : Com) : (nonPwmAction X m s).params = s.params := by cases m <;> simp [nonPwmAction]
@[simp] theorem nonPwmAction_pending (X : Pin) (m : Com) : (nonPwmAction X m s).pending = s.pending := by cases m <;> simp [nonPwmAction]
@[simp] theorem nonPwmAction_answers (X : Pin) (m : Com) : (nonPwmAction X m s).answers = s.answers := by cases m <;> simp [nonPwmAction]
@[simp] theorem nonPwmAction_asked (X : Pin) (m : Com) : (nonPwmAction X m s).asked = s.asked := by cases m <;> simp [nonPwmAction]
@[simp] theorem nonPwmAction_result (X : Pin) (m : Com) : (nonPwmAction X m s).result = s.result := by cases m <;> simp [nonPwmAction]

@[simp] theorem pwmToggle_controlA (X : Pin) (g : Bool) : (pwmToggle X g s).controlA = s.controlA := by unfold pwmToggle; (repeat' split) <;> simp
@[simp] theorem pwmToggle_controlB (X : Pin) (g : Bool) : (pwmToggle X g s).controlB = s.controlB := by unfold pwmToggle; (repeat' split) <;> simp
@[simp] theorem pwmToggle_count (X : Pin) (g : Bool) : (pwmToggle X g s).count = s.count := by unfold pwmToggle; (repeat' split) <;> simp
@[simp] theorem pwmToggle_compareA (X : Pin) (g : Bool) : (pwmToggle X g s).compareA = s.compareA := by unfold pwmToggle; (repeat' split) <;> simp
@[simp] theorem pwmToggle_compareB (X : Pin) (g : Bool) : (pwmToggle X g s).compareB = s.compareB := by unfold pwmToggle; (repeat' split) <;> simp
@[simp] theorem pwmToggle_compareBufferA (X : Pin) (g : Bool) : (pwmToggle X g s).compareBufferA = s.compareBufferA := by unfold pwmToggle; (repeat' split) <;> simp
@[simp] theorem pwmToggle_compareBufferB (X : Pin) (g : Bool) : (pwmToggle X g s).compareBufferB = s.compareBufferB := by unfold pwmToggle; (repeat' split) <;> simp
@[simp] theorem pwmToggle_interruptMask (X : Pin) (g : Bool) : (pwmToggle X g s).interruptMask = s.interruptMask := by unfold pwmToggle; (repeat' split) <;> simp
@[simp] theorem pwmToggle_interruptFlags (X : Pin) (g : Bool) : (pwmToggle X g s).interruptFlags = s.interruptFlags := by unfold pwmToggle; (repeat' split) <;> simp
@[simp] theorem pwmToggle_countingDownwards (X : Pin) (g : Bool) : (pwmToggle X g s).countingDownwards = s.countingDownwards := by unfold pwmToggle; (repeat' split) <;> simp
@[simp] theorem pwmToggle_outputPinSinkA (X : Pin) (g : Bool) : (pwmToggle X g s).outputPinSinkA = s.outputPinSinkA := by unfold pwmToggle; (repeat' split) <;> simp
@[simp] theorem pwmToggle_outputPinSinkB (X : Pin) (g : Bool) : (pwmToggle X g s).outputPinSinkB = s.outputPinSinkB := by unfold pwmToggle; (repeat' split) <;> simp
@[simp] theorem pwmToggle_inhibitNextCompareMatch (X : Pin) (g : Bool) : (pwmToggle X g s).inhibitNextCompareMatch = s.inhibitNextCompareMatch := by unfold pwmToggle; (repeat' split) <;> simp
@[simp] theorem pwmToggle_excessTicks (X : Pin) (g : Bool) : (pwmToggle X g s).excessTicks = s.excessTicks := by unfold pwmToggle; (repeat' split) <;> simp
@[simp] theorem pwmToggle_params (X : Pin) (g : Bool) : (pwmToggle X g s).params = s.params := by unfold pwmToggle; (repeat' split) <;> simp
@[simp] theorem pwmToggle_pending (X : Pin) (g : Bool) : (pwmToggle X g s).pending = s.pending := by unfold pwmToggle; (repeat' split) <;> simp
@[simp] theorem pwmToggle_answers (X : Pin) (g : Bool) : (pwmToggle X g s).answers = s.answers := by unfold pwmToggle; (repeat' split) <;> simp
@[simp] theorem pwmToggle_asked (X : Pin) (g : Bool) : (pwmToggle X g s).asked = s.asked := by unfold pwmToggle; (repeat' split) <;> simp
@[simp] theorem pwmToggle_result (X : Pin) (g : Bool) : (pwmToggle X g s).result = s.result := by unfold pwmToggle; (repeat' split) <;> simp

@[simp] theorem fastBottomAction_controlA (X : Pin) (m : Com) : (fastBottomAction X m s).controlA = s.controlA := by cases m <;> simp [fastBottomAction]
@[simp] theorem fastBottomAction_controlB (X : Pin) (m : Com) : (fastBottomAction X m s).controlB = s.controlB := by cases m <;> simp [fastBottomAction]
@[simp] theorem fastBottomAction_count (X : Pin) (m : Com) : (fastBottomAction X m s).count = s.count := by cases m <;> simp [fastBottomAction]
@[simp] theorem fastBottomAction_compareA (X : Pin) (m : Com) : (fastBottomAction X m s).compareA = s.compareA := by cases m <;> simp [fastBottomAction]
@[simp] theorem fastBottomAction_compareB (X : Pin) (m : Com) : (fastBottomAction X m s).compareB = s.compareB := by cases m <;> simp [fastBottomAction]
@[simp] theorem fastBottomAction_compareBufferA (X : Pin) (m : Com) : (fastBottomAction X m s).compareBufferA = s.compareBufferA := by cases m <;> simp [fastBottomAction]
@[simp] theorem fastBottomAction_compareBufferB (X : Pin) (m : Com) : (fastBottomAction X m s).compareBufferB = s.compareBufferB := by cases m <;> simp [fastBottomAction]
@[simp] theorem fastBottomAction_interruptMask (X : Pin) (m : Com) : (fastBottomAction X m s).interruptMask = s.interruptMask := by cases m <;> simp [fastBottomAction]
@[simp] theorem fastBottomAction_interruptFlags (X : Pin) (m : Com) : (fastBottomAction X m s).interruptFlags = s.interruptFlags := by cases m <;> simp [fastBottomAction]
@[simp] theorem fastBottomAction_countingDownwards (X : Pin) (m : Com) : (fastBottomAction X m s).countingDownwards = s.countingDownwards := by cases m <;> simp [fastBottomAction]
@[simp] theorem fastBottomAction_outputPinSinkA (X : Pin) (m : Com) : (fastBottomAction X m s).outputPinSinkA = s.outputPinSinkA := by cases m <;> simp [fastBottomAction]
@[simp] theorem fastBottomAction_outputPinSinkB (X : Pin) (m : Com) : (fastBottomAction X m s).outputPinSinkB = s.outputPinSinkB := by cases m <;> simp [fastBottomAction]
@[simp] theorem fastBottomAction_inhibitNextCompareMatch (X : Pin) (m : Com) : (fastBottomAction X m s).inhibitNextCompareMatch = s.inhibitNextCompareMatch := by cases m <;> simp [fastBottomAction]
@[simp] theorem fastBottomAction_excessTicks (X : Pin) (m : Com) : (fastBottomAction X m s).excessTicks = s.excessTicks := by cases m <;> simp [fastBottomAction]
@[simp] theorem fastBottomAction_params (X : Pin) (m : Com) : (fastBottomAction X m s).params = s.params := by cases m <;> simp [fastBottomAction]
@[simp] theorem fastBottomAction_pending (X : Pin) (m : Com) : (fastBottomAction X m s).pending = s.pending := by cases m <;> simp [fastBottomAction]
@[simp] theorem fastBottomAction_answers (X : Pin) (m : Com) : (fastBottomAction X m s).answers = s.answers := by cases m <;> simp [fastBottomAction]
@[simp] theorem fastBottomAction_asked (X : Pin) (m : Com) : (fastBottomAction X m s).asked = s.asked := by cases m <;> simp [fastBottomAction]
@[simp] theorem fastBottomAction_result (X : Pin) (m : Com) : (fastBottomAction X m s).result = s.result := by cases m <;> simp [fastBottomAction]

@[simp] theorem fastMatchAction_controlA (X : Pin) (m : Com) (g : Bool) : (fastMatchAction X m g s).controlA = s.controlA := by cases m <;> simp [fastMatchAction]
@[simp] theorem fastMatchAction_controlB (X : Pin) (m : Com) (g : Bool) : (fastMatchAction X m g s).controlB = s.controlB := by cases m <;> simp [fastMatchAction]
@[simp] theorem fastMatchAction_count (X : Pin) (m : Com) (g : Bool) : (fastMatchAction X m g s).count = s.count := by cases m <;> simp [fastMatchAction]
@[simp] theorem fastMatchAction_compareA (X : Pin) (m : Com) (g : Bool) : (fastMatchAction X m g s).compareA = s.compareA := by cases m <;> simp [fastMatchAction]
@[simp] theorem fastMatchAction_compareB (X : Pin) (m : Com) (g : Bool) : (fastMatchAction X m g s).compareB = s.compareB := by cases m <;> simp [fastMatchAction]
@[simp] theorem fastMatchAction_compareBufferA (X : Pin) (m : Com) (g : Bool) : (fastMatchAction X m g s).compareBufferA = s.compareBufferA := by cases m <;> simp [fastMatchAction]
@[simp] theorem fastMatchAction_compareBufferB (X : Pin) (m : Com) (g : Bool) : (fastMatchAction X m g s).compareBufferB = s.compareBufferB := by cases m <;> simp [fastMatchAction]
@[simp] theorem fastMatchAction_interruptMask (X : Pin) (m : Com) (g : Bool) : (fastMatchAction X m g s).interruptMask = s.interruptMask := by cases m <;> simp [fastMatchAction]
@[simp] theorem fastMatchAction_interruptFlags (X : Pin) (m : Com) (g : Bool) : (fastMatchAction X m g s).interruptFlags = s.interruptFlags := by cases m <;> simp [fastMatchAction]
@[simp] theorem fastMatchAction_countingDownwards (X : Pin) (m : Com) (g : Bool) : (fastMatchAction X m g s).countingDownwards = s.countingDownwards := by cases m <;> simp [fastMatchAction]
@[simp] theorem fastMatchAction_outputPinSinkA (X : Pin) (m : Com) (g : Bool) : (fastMatchAction X m g s).outputPinSinkA = s.outputPinSinkA := by cases m <;> simp [fastMatchAction]
@[simp] theorem fastMatchAction_outputPinSinkB (X : Pin) (m : Com) (g : Bool) : (fastMatchAction X m g s).outputPinSinkB = s.outputPinSinkB := by cases m <;> simp [fastMatchAction]
@[simp] theorem fastMatchAction_inhibitNextCompareMatch (X : Pin) (m : Com) (g : Bool) : (fastMatchAction X m g s).inhibitNextCompareMatch = s.inhibitNextCompareMatch := by cases m <;> simp [fastMatchAction]
@[simp] theorem fastMatchAction_excessTicks (X : Pin) (m : Com) (g : Bool) : (fastMatchAction X m g s).excessTicks = s.excessTicks := by cases m <;> simp [fastMatchAction]
@[simp] theorem fastMatchAction_params (X : Pin) (m : Com) (g : Bool) : (fastMatchAction X m g s).params = s.params := by cases m <;> simp [fastMatchAction]
@[simp] theorem fastMatchAction_pending (X : Pin) (m : Com) (g : Bool) : (fastMatchAction X m g s).pending = s.pending := by cases m <;> simp [fastMatchAction]
@[simp] theorem fastMatchAction_answers (X : Pin) (m : Com) (g : Bool) : (fastMatchAction X m g s).answers = s.answers := by cases m <;> simp [fastMatchAction]
@[simp] theorem fastMatchAction_asked (X : Pin) (m : Com) (g : Bool) : (fastMatchAction X m g s).asked = s.asked := by cases m <;> simp [fastMatchAction]
@[simp] theorem fastMatchAction_result (X : Pin) (m : Com) (g : Bool) : (fastMatchAction X m g s).result = s.result := by cases m <;> simp [fastMatchAction]

@[simp] theorem fastPinLogic_controlA (X : Pin) (m : Com) (g : Bool) (c0 : Byte) : (fastPinLogic X m g c0 s).controlA = s.controlA := by simp only [fastPinLogic]; (repeat' split) <;> simp
@[simp] theorem fastPinLogic_controlB (X : Pin) (m : Com) (g : Bool) (c0 : Byte) : (fastPinLogic X m g c0 s).controlB = s.controlB := by simp only [fastPinLogic]; (repeat' split) <;> simp
@[simp] theorem fastPinLogic_count (X : Pin) (m : Com) (g : Bool) (c0 : Byte) : (fastPinLogic X m g c0 s).count = s.count := by simp only [fastPinLogic]; (repeat' split) <;> simp
@[simp] theorem fastPinLogic_compareA (X : Pin) (m : Com) (g : Bool) (c0 : Byte) : (fastPinLogic X m g c0 s).compareA = s.compareA := by simp only [fastPinLogic]; (repeat' split) <;> simp
@[simp] theorem fastPinLogic_compareB (X : Pin) (m : Com) (g : Bool) (c0 : Byte) : (fastPinLogic X m g c0 s).compareB = s.compareB := by simp only [fastPinLogic]; (repeat' split) <;> simp
@[simp] theorem fastPinLogic_compareBufferA (X : Pin) (m : Com) (g : Bool) (c0 : Byte) : (fastPinLogic X m g c0 s).compareBufferA = s.compareBufferA := by simp only [fastPinLogic]; (repeat' split) <;> simp
@[simp] theorem fastPinLogic_compareBufferB (X : Pin) (m : Com) (g : Bool) (c0 : Byte) : (fastPinLogic X m g c0 s).compareBufferB = s.compareBufferB := by simp only [fastPinLogic]; (repeat' split) <;> simp
@[simp] theorem fastPinLogic_interruptMask (X : Pin) (m : Com) (g : Bool) (c0 : Byte) : (fastPinLogic X m g c0 s).interruptMask = s.interruptMask := by simp only [fastPinLogic]; (repeat' split) <;> simp
@[simp] theorem fastPinLogic_interruptFlags (X : Pin) (m : Com) (g : Bool) (c0 : Byte) : (fastPinLogic X m g c0 s).interruptFlags = s.interruptFlags := by simp only [fastPinLogic]; (repeat' split) <;> simp
@[simp] theorem fastPinLogic_countingDownwards (X : Pin) (m : Com) (g : Bool) (c0 : Byte) : (fastPinLogic X m g c0 s).countingDownwards = s.countingDownwards := by simp only [fastPinLogic]; (repeat' split) <;> simp
@[simp] theorem fastPinLogic_outputPinSinkA (X : Pin) (m : Com) (g : Bool) (c0 : Byte) : (fastPinLogic X m g c0 s).outputPinSinkA = s.outputPinSinkA := by simp only [fastPinLogic]; (repeat' split) <;> simp
@[simp] theorem fastPinLogic_outputPinSinkB (X : Pin) (m : Com) (g : Bool) (c0 : Byte) : (fastPinLogic X m g c0 s).outputPinSinkB = s.outputPinSinkB := by simp only [fastPinLogic]; (repeat' split) <;> simp
@[simp] theorem fastPinLogic_inhibitNextCompareMatch (X : Pin) (m : Com) (g : Bool) (c0 : Byte) : (fastPinLogic X m g c0 s).inhibitNextCompareMatch = s.inhibitNextCompareMatch := by simp only [fastPinLogic]; (repeat' split) <;> simp
@[simp] theorem fastPinLogic_excessTicks (X : Pin) (m : Com) (g : Bool) (c0 : Byte) : (fastPinLogic X m g c0 s).excessTicks = s.excessTicks := by simp only [fastPinLogic]; (repeat' split) <;> simp
@[simp] theorem fastPinLogic_params (X : Pin) (m : Com) (g : Bool) (c0 : Byte) : (fastPinLogic X m g c0 s).params = s.params := by simp only [fastPinLogic]; (repeat' split) <;> simp
@[simp] theorem fastPinLogic_pending (X : Pin) (m : Com) (g : Bool) (c0 : Byte) : (fastPinLogic X m g c0 s).pending = s.pending := by simp only [fastPinLogic]; (repeat' split) <;> simp
@[simp] theorem fastPinLogic_answers (X : Pin) (m : Com) (g : Bool) (c0 : Byte) : (fastPinLogic X m g c0 s).answers = s.answers := by simp only [fastPinLogic]; (repeat' split) <;> simp
@[simp] theorem fastPinLogic_asked (X : Pin) (m : Com) (g : Bool) (c0 : Byte) : (fastPinLogic X m g c0 s).asked = s.asked := by simp only [fastPinLogic]; (repeat' split) <;> simp
@[simp] theorem fastPinLogic_result (X : Pin) (m : Com) (g : Bool) (c0 : Byte) : (fastPinLogic X m g c0 s).result = s.result := by simp only [fastPinLogic]; (repeat' split) <;> simp

@[simp] theorem phaseMatchAction_controlA (X : Pin) (m : Com) (g : Bool) : (phaseMatchAction X m g s).controlA = s.controlA := by unfold phaseMatchAction; (repeat' split) <;> simp
@[simp] theorem phaseMatchAction_controlB (X : Pin) (m : Com) (g : Bool) : (phaseMatchAction X m g s).controlB = s.controlB := by unfold phaseMatchAction; (repeat' split) <;> simp
@[simp] theorem phaseMatchAction_count (X : Pin) (m : Com) (g : Bool) : (phaseMatchAction X m g s).count = s.count := by unfold phaseMatchAction; (repeat' split) <;> simp
@[simp] theorem phaseMatchAction_compareA (X : Pin) (m : Com) (g : Bool) : (phaseMatchAction X m g s).compareA = s.compareA := by unfold phaseMatchAction; (repeat' split) <;> simp
@[simp] theorem phaseMatchAction_compareB (X : Pin) (m : Com) (g : Bool) : (phaseMatchAction X m g s).compareB = s.compareB := by unfold phaseMatchAction; (repeat' split) <;> simp
@[simp] theorem phaseMatchAction_compareBufferA (X : Pin) (m : Com) (g : Bool) : (phaseMatchAction X m g s).compareBufferA = s.compareBufferA := by unfold phaseMatchAction; (repeat' split) <;> simp
@[simp] theorem phaseMatchAction_compareBufferB (X : Pin) (m : Com) (g : Bool) : (phaseMatchAction X m g s).compareBufferB = s.compareBufferB := by unfold phaseMatchAction; (repeat' split) <;> simp
@[simp] theorem phaseMatchAction_interruptMask (X : Pin) (m : Com) (g : Bool) : (phaseMatchAction X m g s).interruptMask = s.interruptMask := by unfold phaseMatchAction; (repeat' split) <;> simp
@[simp] theorem phaseMatchAction_interruptFlags (X : Pin) (m : Com) (g : Bool) : (phaseMatchAction X m g s).interruptFlags = s.interruptFlags := by unfold phaseMatchAction; (repeat' split) <;> simp
@[simp] theorem phaseMatchAction_countingDownwards (X : Pin) (m : Com) (g : Bool) : (phaseMatchAction X m g s).countingDownwards = s.countingDownwards := by unfold phaseMatchAction; (repeat' split) <;> simp
@[simp] theorem phaseMatchAction_outputPinSinkA (X : Pin) (m : Com) (g : Bool) : (phaseMatchAction X m g s).outputPinSinkA = s.outputPinSinkA := by unfold phaseMatchAction; (repeat' split) <;> simp
@[simp] theorem phaseMatchAction_outputPinSinkB (X : Pin) (m : Com) (g : Bool) : (phaseMatchAction X m g s).outputPinSinkB = s.outputPinSinkB := by unfold phaseMatchAction; (repeat' split) <;> simp
@[simp] theorem phaseMatchAction_inhibitNextCompareMatch (X : Pin) (m : Com) (g : Bool) : (phaseMatchAction X m g s).inhibitNextCompareMatch = s.inhibitNextCompareMatch := by unfold phaseMatchAction; (repeat' split) <;> simp
@[simp] theorem phaseMatchAction_excessTicks (X : Pin) (m : Com) (g : Bool) : (phaseMatchAction X m g s).excessTicks = s.excessTicks := by unfold phaseMatchAction; (repeat' split) <;> simp
@[simp] theorem phaseMatchAction_params (X : Pin) (m : Com) (g : Bool) : (phaseMatchAction X m g s).params = s.params := by unfold phaseMatchAction; (repeat' split) <;> simp
@[simp] theorem phaseMatchAction_pending (X : Pin) (m : Com) (g : Bool) : (phaseMatchAction X m g s).pending = s.pending := by unfold phaseMatchAction; (repeat' split) <;> simp
@[simp] theorem phaseMatchAction_answers (X : Pin) (m : Com) (g : Bool) : (phaseMatchAction X m g s).answers = s.answers := by unfold phaseMatchAction; (repeat' split) <;> simp
@[simp] theorem phaseMatchAction_asked (X : Pin) (m : Com) (g : Bool) : (phaseMatchAction X m g s).asked = s.asked := by unfold phaseMatchAction; (repeat' split) <;> simp
@[simp] theorem phaseMatchAction_result (X : Pin) (m : Com) (g : Bool) : (phaseMatchAction X m g s).result = s.result := by unfold phaseMatchAction; (repeat' split) <;> simp

@[simp] theorem phasePinLogic_controlA (X : Pin) (m : Com) (g : Bool) (c0 : Byte) : (phasePinLogic X m g c0 s).controlA = s.controlA := by unfold phasePinLogic; (repeat' split) <;> simp
@[simp] theorem phasePinLogic_controlB (X : Pin) (m : Com) (g : Bool) (c0 : Byte) : (phasePinLogic X m g c0 s).controlB = s.controlB := by unfold phasePinLogic; (repeat' split) <;> simp
@[simp] theorem phasePinLogic_count (X : Pin) (m : Com) (g : Bool) (c0 : Byte) : (phasePinLogic X m g c0 s).count = s.count := by unfold phasePinLogic; (repeat' split) <;> simp
@[simp] theorem phasePinLogic_compareA (X : Pin) (m : Com) (g : Bool) (c0 : Byte) : (phasePinLogic X m g c0 s).compareA = s.compareA := by unfold phasePinLogic; (repeat' split) <;> simp
@[simp] theorem phasePinLogic_compareB (X : Pin) (m : Com) (g : Bool) (c0 : Byte) : (phasePinLogic X m g c0 s).compareB = s.compareB := by unfold phasePinLogic; (repeat' split) <;> simp
@[simp] theorem phasePinLogic_compareBufferA (X : Pin) (m : Com) (g : Bool) (c0 : Byte) : (phasePinLogic X m g c0 s).compareBufferA = s.compareBufferA := by unfold phasePinLogic; (repeat' split) <;> simp
@[simp] theorem phasePinLogic_compareBufferB (X : Pin) (m : Com) (g : Bool) (c0 : Byte) : (phasePinLogic X m g c0 s).compareBufferB = s.compareBufferB := by unfold phasePinLogic; (repeat' split) <;> simp
@[simp] theorem phasePinLogic_interruptMask (X : Pin) (m : Com) (g : Bool) (c0 : Byte) : (phasePinLogic X m g c0 s).interruptMask = s.interruptMask := by unfold phasePinLogic; (repeat' split) <;> simp
@[simp] theorem phasePinLogic_interruptFlags (X : Pin) (m : Com) (g : Bool) (c0 : Byte) : (phasePinLogic X m g c0 s).interruptFlags = s.interruptFlags := by unfold phasePinLogic; (repeat' split) <;> simp
@[simp] theorem phasePinLogic_countingDownwards (X : Pin) (m : Com) (g : Bool) (c0 : Byte) : (phasePinLogic X m g c0 s).countingDownwards = s.countingDownwards := by unfold phasePinLogic; (repeat' split) <;> simp
@[simp] theorem phasePinLogic_outputPinSinkA (X : Pin) (m : Com) (g : Bool) (c0 : Byte) : (phasePinLogic X m g c0 s).outputPinSinkA = s.outputPinSinkA := by unfold phasePinLogic; (repeat' split) <;> simp
@[simp] theorem phasePinLogic_outputPinSinkB (X : Pin) (m : Com) (g : Bool) (c0 : Byte) : (phasePinLogic X m g c0 s).outputPinSinkB = s.outputPinSinkB := by unfold phasePinLogic; (repeat' split) <;> simp
@[simp] theorem phasePinLogic_inhibitNextCompareMatch (X : Pin) (m : Com) (g : Bool) (c0 : Byte) : (phasePinLogic X m g c0 s).inhibitNextCompareMatch = s.inhibitNextCompareMatch := by unfold phasePinLogic; (repeat' split) <;> simp
@[simp] theorem phasePinLogic_excessTicks (X : Pin) (m : Com) (g : Bool) (c0 : Byte) : (phasePinLogic X m g c0 s).excessTicks = s.excessTicks := by unfold phasePinLogic; (repeat' split) <;> simp
@[simp] theorem phasePinLogic_params (X : Pin) (m : Com) (g : Bool) (c0 : Byte) : (phasePinLogic X m g c0 s).params = s.params := by unfold phasePinLogic; (repeat' split) <;> simp
@[simp] theorem phasePinLogic_pending (X : Pin) (m : Com) (g : Bool) (c0 : Byte) : (phasePinLogic X m g c0 s).pending = s.pending := by unfold phasePinLogic; (repeat' split) <;> simp
@[simp] theorem phasePinLogic_answers (X : Pin) (m : Com) (g : Bool) (c0 : Byte) : (phasePinLogic X m g c0 s).answers = s.answers := by unfold phasePinLogic; (repeat' split) <;> simp
@[simp] theorem phasePinLogic_asked (X : Pin) (m : Com) (g : Bool) (c0 : Byte) : (phasePinLogic X m g c0 s).asked = s.asked := by unfold phasePinLogic; (repeat' split) <;> simp
@[simp] theorem phasePinLogic_result (X : Pin) (m : Com) (g : Bool) (c0 : Byte) : (phasePinLogic X m g c0 s).result = s.result := by unfold phasePinLogic; (repeat' split) <;> simp

@[simp] theorem nonPwmPin_controlA (X : Pin) (c0 : Byte) : (nonPwmPin X c0 s).controlA = s.controlA := by unfold nonPwmPin; (repeat' split) <;> simp
@[simp] theorem nonPwmPin_controlB (X : Pin) (c0 : Byte) : (nonPwmPin X c0 s).controlB = s.controlB := by unfold nonPwmPin; (repeat' split) <;> simp
@[simp] theorem nonPwmPin_count (X : Pin) (c0 : Byte) : (nonPwmPin X c0 s).count = s.count := by unfold nonPwmPin; (repeat' split) <;> simp
@[simp] theorem nonPwmPin_compareA (X : Pin) (c0 : Byte) : (nonPwmPin X c0 s).compareA = s.compareA := by unfold nonPwmPin; (repeat' split) <;> simp
@[simp] theorem nonPwmPin_compareB (X : Pin) (c0 : Byte) : (nonPwmPin X c0 s).compareB = s.compareB := by unfold nonPwmPin; (repeat' split) <;> simp
@[simp] theorem nonPwmPin_compareBufferA (X : Pin) (c0 : Byte) : (nonPwmPin X c0 s).compareBufferA = s.compareBufferA := by unfold nonPwmPin; (repeat' split) <;> simp
@[simp] theorem nonPwmPin_compareBufferB (X : Pin) (c0 : Byte) : (nonPwmPin X c0 s).compareBufferB = s.compareBufferB := by unfold nonPwmPin; (repeat' split) <;> simp
@[simp] theorem nonPwmPin_interruptMask (X : Pin) (c0 : Byte) : (nonPwmPin X c0 s).interruptMask = s.interruptMask := by unfold nonPwmPin; (repeat' split) <;> simp
@[simp] theorem nonPwmPin_interruptFlags (X : Pin) (c0 : Byte) : (nonPwmPin X c0 s).interruptFlags = s.interruptFlags := by unfold nonPwmPin; (repeat' split) <;> simp
@[simp] theorem nonPwmPin_countingDownwards (X : Pin) (c0 : Byte) : (nonPwmPin X c0 s).countingDownwards = s.countingDownwards := by unfold nonPwmPin; (repeat' split) <;> simp
@[simp] theorem nonPwmPin_outputPinSinkA (X : Pin) (c0 : Byte) : (nonPwmPin X c0 s).outputPinSinkA = s.outputPinSinkA := by unfold nonPwmPin; (repeat' split) <;> simp
@[simp] theorem nonPwmPin_outputPinSinkB (X : Pin) (c0 : Byte) : (nonPwmPin X c0 s).outputPinSinkB = s.outputPinSinkB := by unfold nonPwmPin; (repeat' split) <;> simp
@[simp] theorem nonPwmPin_inhibitNextCompareMatch (X : Pin) (c0 : Byte) : (nonPwmPin X c0 s).inhibitNextCompareMatch = s.inhibitNextCompareMatch := by unfold nonPwmPin; (repeat' split) <;> simp
@[simp] theorem nonPwmPin_excessTicks (X : Pin) (c0 : Byte) : (nonPwmPin X c0 s).excessTicks = s.excessTicks := by unfold nonPwmPin; (repeat' split) <;> simp
@[simp] theorem nonPwmPin_params (X : Pin) (c0 : Byte) : (nonPwmPin X c0 s).params = s.params := by unfold nonPwmPin; (repeat' split) <;> simp
@[simp] theorem nonPwmPin_pending (X : Pin) (c0 : Byte) : (nonPwmPin X c0 s).pending = s.pending := by unfold nonPwmPin; (repeat' split) <;> simp
@[simp] theorem nonPwmPin_answers (X : Pin) (c0 : Byte) : (nonPwmPin X c0 s).answers = s.answers := by unfold nonPwmPin; (repeat' split) <;> simp
@[simp] theorem nonPwmPin_asked (X : Pin) (c0 : Byte) : (nonPwmPin X c0 s).asked = s.asked := by unfold nonPwmPin; (repeat' split) <;> simp
@[simp] theorem nonPwmPin_result (X : Pin) (c0 : Byte) : (nonPwmPin X c0 s).result = s.result := by unfold nonPwmPin; (repeat' split) <;> simp

@[simp] theorem fastPin_controlA (X : Pin) (c0 : Byte) : (fastPin X c0 s).controlA = s.controlA := by simp [fastPin]
@[simp] theorem fastPin_controlB (X : Pin) (c0 : Byte) : (fastPin X c0 s).controlB = s.controlB := by simp [fastPin]
@[simp] theorem fastPin_count (X : Pin) (c0 : Byte) : (fastPin X c0 s).count = s.count := by simp [fastPin]
@[simp] theorem fastPin_compareA (X : Pin) (c0 : Byte) : (fastPin X c0 s).compareA = s.compareA := by simp [fastPin]
@[simp] theorem fastPin_compareB (X : Pin) (c0 : Byte) : (fastPin X c0 s).compareB = s.compareB := by simp [fastPin]
@[simp] theorem fastPin_compareBufferA (X : Pin) (c0 : Byte) : (fastPin X c0 s).compareBufferA = s.compareBufferA := by simp [fastPin]
@[simp] theorem fastPin_compareBufferB (X : Pin) (c0 : Byte) : (fastPin X c0 s).compareBufferB = s.compareBufferB := by simp [fastPin]
@[simp] theorem fastPin_interruptMask (X : Pin) (c0 : Byte) : (fastPin X c0 s).interruptMask = s.interruptMask := by simp [fastPin]
@[simp] theorem fastPin_interruptFlags (X : Pin) (c0 : Byte) : (fastPin X c0 s).interruptFlags = s.interruptFlags := by simp [fastPin]
@[simp] theorem fastPin_countingDownwards (X : Pin) (c0 : Byte) : (fastPin X c0 s).countingDownwards = s.countingDownwards := by simp [fastPin]
@[simp] theorem fastPin_outputPinSinkA (X : Pin) (c0 : Byte) : (fastPin X c0 s).outputPinSinkA = s.outputPinSinkA := by simp [fastPin]
@[simp] theorem fastPin_outputPinSinkB (X : Pin) (c0 : Byte) : (fastPin X c0 s).outputPinSinkB = s.outputPinSinkB := by simp [fastPin]
@[simp] theorem fastPin_inhibitNextCompareMatch (X : Pin) (c0 : Byte) : (fastPin X c0 s).inhibitNextCompareMatch = s.inhibitNextCompareMatch := by simp [fastPin]
@[simp] theorem fastPin_excessTicks (X : Pin) (c0 : Byte) : (fastPin X c0 s).excessTicks = s.excessTicks := by simp [fastPin]
@[simp] theorem fastPin_params (X : Pin) (c0 : Byte) : (fastPin X c0 s).params = s.params := by simp [fastPin]
@[simp] theorem fastPin_pending (X : Pin) (c0 : Byte) : (fastPin X c0 s).pending = s.pending := by simp [fastPin]
@[simp] theorem fastPin_answers (X : Pin) (c0 : Byte) : (fastPin X c0 s).answers = s.answers := by simp [fastPin]
@[simp] theorem fastPin_asked (X : Pin) (c0 : Byte) : (fastPin X c0 s).asked = s.asked := by simp [fastPin]
@[simp] theorem fastPin_result (X : Pin) (c0 : Byte) : (fastPin X c0 s).result = s.result := by simp [fastPin]

@[simp] theorem phasePin_controlA (X : Pin) (c0 : Byte) : (phasePin X c0 s).controlA = s.controlA := by simp [phasePin]
@[simp] theorem phasePin_controlB (X : Pin) (c0 : Byte) : (phasePin X c0 s).controlB = s.controlB := by simp [phasePin]
@[simp] theorem phasePin_count (X : Pin) (c0 : Byte) : (phasePin X c0 s).count = s.count := by simp [phasePin]
@[simp] theorem phasePin_compareA (X : Pin) (c0 : Byte) : (phasePin X c0 s).compareA = s.compareA := by simp [phasePin]
@[simp] theorem phasePin_compareB (X : Pin) (c0 : Byte) : (phasePin X c0 s).compareB = s.compareB := by simp [phasePin]
@[simp] theorem phasePin_compareBufferA (X : Pin) (c0 : Byte) : (phasePin X c0 s).compareBufferA = s.compareBufferA := by simp [phasePin]
@[simp] theorem phasePin_compareBufferB (X : Pin) (c0 : Byte) : (phasePin X c0 s).compareBufferB = s.compareBufferB := by simp [phasePin]
@[simp] theorem phasePin_interruptMask (X : Pin) (c0 : Byte) : (phasePin X c0 s).interruptMask = s.interruptMask := by simp [phasePin]
@[simp] theorem phasePin_interruptFlags (X : Pin) (c0 : Byte) : (phasePin X c0 s).interruptFlags = s.interruptFlags := by simp [phasePin]
@[simp] theorem phasePin_countingDownwards (X : Pin) (c0 : Byte) : (phasePin X c0 s).countingDownwards = s.countingDownwards := by simp [phasePin]
@[simp] theorem phasePin_outputPinSinkA (X : Pin) (c0 : Byte) : (phasePin X c0 s).outputPinSinkA = s.outputPinSinkA := by simp [phasePin]
@[simp] theorem phasePin_outputPinSinkB (X : Pin) (c0 : Byte) : (phasePin X c0 s).outputPinSinkB = s.outputPinSinkB := by simp [phasePin]
@[simp] theorem phasePin_inhibitNextCompareMatch (X : Pin) (c0 : Byte) : (phasePin X c0 s).inhibitNextCompareMatch = s.inhibitNextCompareMatch := by simp [phasePin]
@[simp] theorem phasePin_excessTicks (X : Pin) (c0 : Byte) : (phasePin X c0 s).excessTicks = s.excessTicks := by simp [phasePin]
@[simp] theorem phasePin_params (X : Pin) (c0 : Byte) : (phasePin X c0 s).params = s.params := by simp [phasePin]
@[simp] theorem phasePin_pending (X : Pin) (c0 : Byte) : (phasePin X c0 s).pending = s.pending := by simp [phasePin]
@[simp] theorem phasePin_answers (X : Pin) (c0 : Byte) : (phasePin X c0 s).answers = s.answers := by simp [phasePin]
@[simp] theorem phasePin_asked (X : Pin) (c0 : Byte) : (phasePin X c0 s).asked = s.asked := by simp [phasePin]
@[simp] theorem phasePin_result (X : Pin) (c0 : Byte) : (phasePin X c0 s).result = s.result := by simp [phasePin]

@[simp] theorem turn_controlA (top c0 : Byte) : (turn top c0 s).controlA = s.controlA := by unfold turn; (repeat' split) <;> simp
@[simp] theorem turn_controlB (top c0 : Byte) : (turn top c0 s).controlB = s.controlB := by unfold turn; (repeat' split) <;> simp
@[simp] theorem turn_count (top c0 : Byte) : (turn top c0 s).count = s.count := by unfold turn; (repeat' split) <;> simp
@[simp] theorem turn_compareA (top c0 : Byte) : (turn top c0 s).compareA = s.compareA := by unfold turn; (repeat' split) <;> simp
@[simp] theorem turn_compareB (top c0 : Byte) : (turn top c0 s).compareB = s.compareB := by unfold turn; (repeat' split) <;> simp
@[simp] theorem turn_compareBufferA (top c0 : Byte) : (turn top c0 s).compareBufferA = s.compareBufferA := by unfold turn; (repeat' split) <;> simp
@[simp] theorem turn_compareBufferB (top c0 : Byte) : (turn top c0 s).compareBufferB = s.compareBufferB := by unfold turn; (repeat' split) <;> simp
@[simp] theorem turn_interruptMask (top c0 : Byte) : (turn top c0 s).interruptMask = s.interruptMask := by unfold turn; (repeat' split) <;> simp
@[simp] theorem turn_outputPinStateA (top c0 : Byte) : (turn top c0 s).outputPinStateA = s.outputPinStateA := by unfold turn; (repeat' split) <;> simp
@[simp] theorem turn_outputPinStateB (top c0 : Byte) : (turn top c0 s).outputPinStateB = s.outputPinStateB := by unfold turn; (repeat' split) <;> simp
@[simp] theorem turn_outputPinSinkA (top c0 : Byte) : (turn top c0 s).outputPinSinkA = s.outputPinSinkA := by unfold turn; (repeat' split) <;> simp
@[simp] theorem turn_outputPinSinkB (top c0 : Byte) : (turn top c0 s).outputPinSinkB = s.outputPinSinkB := by unfold turn; (repeat' split) <;> simp
@[simp] theorem turn_inhibitNextCompareMatch (top c0 : Byte) : (turn top c0 s).inhibitNextCompareMatch = s.inhibitNextCompareMatch := by unfold turn; (repeat' split) <;> simp
@[simp] theorem turn_excessTicks (top c0 : Byte) : (turn top c0 s).excessTicks = s.excessTicks := by unfold turn; (repeat' split) <;> simp
@[simp] theorem turn_params (top c0 : Byte) : (turn top c0 s).params = s.params := by unfold turn; (repeat' split) <;> simp
@[simp] theorem turn_pending (top c0 : Byte) : (turn top c0 s).pending = s.pending := by unfold turn; (repeat' split) <;> simp
@[simp] theorem turn_answers (top c0 : Byte) : (turn top c0 s).answers = s.answers := by unfold turn; (repeat' split) <;> simp
@[simp] theorem turn_asked (top c0 : Byte) : (turn top c0 s).asked = s.asked := by unfold turn; (repeat' split) <;> simp
@[simp] theorem turn_events (top c0 : Byte) : (turn top c0 s).events = s.events := by unfold turn; (repeat' split) <;> simp
@[simp] theorem turn_result (top c0 : Byte) : (turn top c0 s).result = s.result := by unfold turn; (repeat' split) <;> simp

@[simp] theorem grant_controlA (v : Source) (h : Bool) : (grant v h s).controlA = s.controlA := by simp only [grant]; split <;> simp
@[simp] theorem grant_controlB (v : Source) (h : Bool) : (grant v h s).controlB = s.controlB := by simp only [grant]; split <;> simp
@[simp] theorem grant_count (v : Source) (h : Bool) : (grant v h s).count = s.count := by simp only [grant]; split <;> simp
@[simp] theorem grant_compareA (v : Source) (h : Bool) : (grant v h s).compareA = s.compareA := by simp only [grant]; split <;> simp
@[simp] theorem grant_compareB (v : Source) (h : Bool) : (grant v h s).compareB = s.compareB := by simp only [grant]; split <;> simp
@[simp] theorem grant_compareBufferA (v : Source) (h : Bool) : (grant v h s).compareBufferA = s.compareBufferA := by simp only [grant]; split <;> simp
@[simp] theorem grant_compareBufferB (v : Source) (h : Bool) : (grant v h s).compareBufferB = s.compareBufferB := by simp only [grant]; split <;> simp
@[simp] theorem grant_interruptMask (v : Source) (h : Bool) : (grant v h s).interruptMask = s.interruptMask := by simp only [grant]; split <;> simp
@[simp] theorem grant_countingDownwards (v : Source) (h : Bool) : (grant v h s).countingDownwards = s.countingDownwards := by simp only [grant]; split <;> simp
@[simp] theorem grant_outputPinStateA (v : Source) (h : Bool) : (grant v h s).outputPinStateA = s.outputPinStateA := by simp only [grant]; split <;> simp
@[simp] theorem grant_outputPinStateB (v : Source) (h : Bool) : (grant v h s).outputPinStateB = s.outputPinStateB := by simp only [grant]; split <;> simp
@[simp] theorem grant_outputPinSinkA (v : Source) (h : Bool) : (grant v h s).outputPinSinkA = s.outputPinSinkA := by simp only [grant]; split <;> simp
@[simp] theorem grant_outputPinSinkB (v : Source) (h : Bool) : (grant v h s).outputPinSinkB = s.outputPinSinkB := by simp only [grant]; split <;> simp
@[simp] theorem grant_inhibitNextCompareMatch (v : Source) (h : Bool) : (grant v h s).inhibitNextCompareMatch = s.inhibitNextCompareMatch := by simp only [grant]; split <;> simp
@[simp] theorem grant_excessTicks (v : Source) (h : Bool) : (grant v h s).excessTicks = s.excessTicks := by simp only [grant]; split <;> simp
@[simp] theorem grant_params (v : Source) (h : Bool) : (grant v h s).params = s.params := by simp only [grant]; split <;> simp
@[simp] theorem grant_pending (v : Source) (h : Bool) : (grant v h s).pending = s.pending := by simp only [grant]; split <;> simp
@[simp] theorem grant_answers (v : Source) (h : Bool) : (grant v h s).answers = s.answers := by simp only [grant]; split <;> simp
@[simp] theorem grant_asked (v : Source) (h : Bool) : (grant v h s).asked = s.asked := by simp only [grant]; split <;> simp
@[simp] theorem grant_result (v : Source) (h : Bool) : (grant v h s).result = s.result := by simp only [grant]; split <;> simp

@[simp] theorem dispatchCase_controlA (o : Option Source) : (dispatchCase o s).controlA = s.controlA := by unfold dispatchCase; (repeat' split) <;> simp
@[simp] theorem dispatchCase_controlB (o : Option Source) : (dispatchCase o s).controlB = s.controlB := by unfold dispatchCase; (repeat' split) <;> simp
@[simp] theorem dispatchCase_count (o : Option Source) : (dispatchCase o s).count = s.count := by unfold dispatchCase; (repeat' split) <;> simp
@[simp] theorem dispatchCase_compareA (o : Option Source) : (dispatchCase o s).compareA = s.compareA := by unfold dispatchCase; (repeat' split) <;> simp
@[simp] theorem dispatchCase_compareB (o : Option Source) : (dispatchCase o s).compareB = s.compareB := by unfold dispatchCase; (repeat' split) <;> simp
@[simp] theorem dispatchCase_compareBufferA (o : Option Source) : (dispatchCase o s).compareBufferA = s.compareBufferA := by unfold dispatchCase; (repeat' split) <;> simp
@[simp] theorem dispatchCase_compareBufferB (o : Option Source) : (dispatchCase o s).compareBufferB = s.compareBufferB := by unfold dispatchCase; (repeat' split) <;> simp
@[simp] theorem dispatchCase_interruptMask (o : Option Source) : (dispatchCase o s).interruptMask = s.interruptMask := by unfold dispatchCase; (repeat' split) <;> simp
@[simp] theorem dispatchCase_countingDownwards (o : Option Source) : (dispatchCase o s).countingDownwards = s.countingDownwards := by unfold dispatchCase; (repeat' split) <;> simp
@[simp] theorem dispatchCase_outputPinStateA (o : Option Source) : (dispatchCase o s).outputPinStateA = s.outputPinStateA := by unfold dispatchCase; (repeat' split) <;> simp
@[simp] theorem dispatchCase_outputPinStateB (o : Option Source) : (dispatchCase o s).outputPinStateB = s.outputPinStateB := by unfold dispatchCase; (repeat' split) <;> simp
@[simp] theorem dispatchCase_outputPinSinkA (o : Option Source) : (dispatchCase o s).outputPinSinkA = s.outputPinSinkA := by unfold dispatchCase; (repeat' split) <;> simp
@[simp] theorem dispatchCase_outputPinSinkB (o : Option Source) : (dispatchCase o s).outputPinSinkB = s.outputPinSinkB := by unfold dispatchCase; (repeat' split) <;> simp
@[simp] theorem dispatchCase_inhibitNextCompareMatch (o : Option Source) : (dispatchCase o s).inhibitNextCompareMatch = s.inhibitNextCompareMatch := by unfold dispatchCase; (repeat' split) <;> simp
@[simp] theorem dispatchCase_excessTicks (o : Option Source) : (dispatchCase o s).excessTicks = s.excessTicks := by unfold dispatchCase; (repeat' split) <;> simp
@[simp] theorem dispatchCase_params (o : Option Source) : (dispatchCase o s).params = s.params := by unfold dispatchCase; (repeat' split) <;> simp
@[simp] theorem dispatchCase_pending (o : Option Source) : (dispatchCase o s).pending = s.pending := by unfold dispatchCase; (repeat' split) <;> simp
@[simp] theorem dispatchCase_result (o : Option Source) : (dispatchCase o s).result = s.result := by unfold dispatchCase; (repeat' split) <;> simp

@[simp] theorem dispatch_controlA : (dispatch s).controlA = s.controlA := by simp [dispatch]
@[simp] theorem dispatch_controlB : (dispatch s).controlB = s.controlB := by simp [dispatch]
@[simp] theorem dispatch_count : (dispatch s).count = s.count := by simp [dispatch]
@[simp] theorem dispatch_compareA : (dispatch s).compareA = s.compareA := by simp [dispatch]
@[simp] theorem dispatch_compareB : (dispatch s).compareB = s.compareB := by simp [dispatch]
@[simp] theorem dispatch_compareBufferA : (dispatch s).compareBufferA = s.compareBufferA := by simp [dispatch]
@[simp] theorem dispatch_compareBufferB : (dispatch s).compareBufferB = s.compareBufferB := by simp [dispatch]
@[simp] theorem dispatch_interruptMask : (dispatch s).interruptMask = s.interruptMask := by simp [dispatch]
@[simp] theorem dispatch_countingDownwards : (dispatch s).countingDownwards = s.countingDownwards := by simp [dispatch]
@[simp] theorem dispatch_outputPinStateA : (dispatch s).outputPinStateA = s.outputPinStateA := by simp [dispatch]
@[simp] theorem dispatch_outputPinStateB : (dispatch s).outputPinStateB = s.outputPinStateB := by simp [dispatch]
@[simp] theorem dispatch_outputPinSinkA : (dispatch s).outputPinSinkA = s.outputPinSinkA := by simp [dispatch]
@[simp] theorem dispatch_outputPinSinkB : (dispatch s).outputPinSinkB = s.outputPinSinkB := by simp [dispatch]
@[simp] theorem dispatch_inhibitNextCompareMatch : (dispatch s).inhibitNextCompareMatch = s.inhibitNextCompareMatch := by simp [dispatch]
@[simp] theorem dispatch_excessTicks : (dispatch s).excessTicks = s.excessTicks := by simp [dispatch]
@[simp] theorem dispatch_params : (dispatch s).params = s.params := by simp [dispatch]
@[simp] theorem dispatch_pending : (dispatch s).pending = s.pending := by simp [dispatch]
@[simp] theorem dispatch_result : (dispatch s).result = s.result := by simp [dispatch]

@[simp] theorem handleNormal_controlA (c0 : Byte) : (handleNormal c0 s).controlA = s.controlA := by simp [handleNormal]
@[simp] theorem handleNormal_controlB (c0 : Byte) : (handleNormal c0 s).controlB = s.controlB := by simp [handleNormal]
@[simp] theorem handleNormal_count (c0 : Byte) : (handleNormal c0 s).count = s.count := by simp [handleNormal]
@[simp] theorem handleNormal_compareBufferA (c0 : Byte) : (handleNormal c0 s).compareBufferA = s.compareBufferA := by simp [handleNormal]
@[simp] theorem handleNormal_compareBufferB (c0 : Byte) : (handleNormal c0 s).compareBufferB = s.compareBufferB := by simp [handleNormal]
@[simp] theorem handleNormal_interruptMask (c0 : Byte) : (handleNormal c0 s).interruptMask = s.interruptMask := by simp [handleNormal]
@[simp] theorem handleNormal_outputPinSinkA (c0 : Byte) : (handleNormal c0 s).outputPinSinkA = s.outputPinSinkA := by simp [handleNormal]
@[simp] theorem handleNormal_outputPinSinkB (c0 : Byte) : (handleNormal c0 s).outputPinSinkB = s.outputPinSinkB := by simp [handleNormal]
@[simp] theorem handleNormal_inhibitNextCompareMatch (c0 : Byte) : (handleNormal c0 s).inhibitNextCompareMatch = s.inhibitNextCompareMatch := by simp [handleNormal]
@[simp] theorem handleNormal_excessTicks (c0 : Byte) : (handleNormal c0 s).excessTicks = s.excessTicks := by simp [handleNormal]
@[simp] theorem handleNormal_params (c0 : Byte) : (handleNormal c0 s).params = s.params := by simp [handleNormal]
@[simp] theorem handleNormal_pending (c0 : Byte) : (handleNormal c0 s).pending = s.pending := by simp [handleNormal]
@[simp] theorem handleNormal_answers (c0 : Byte) : (handleNormal c0 s).answers = s.answers := by simp [handleNormal]
@[simp] theorem handleNormal_asked (c0 : Byte) : (handleNormal c0 s).asked = s.asked := by simp [handleNormal]
@[simp] theorem handleNormal_result (c0 : Byte) : (handleNormal c0 s).result = s.result := by simp [handleNormal]

@[simp] theorem handleCtc_controlA (c0 : Byte) : (handleCtc c0 s).controlA = s.controlA := by simp [handleCtc]
@[simp] theorem handleCtc_controlB (c0 : Byte) : (handleCtc c0 s).controlB = s.controlB := by simp [handleCtc]
@[simp] theorem handleCtc_compareBufferA (c0 : Byte) : (handleCtc c0 s).compareBufferA = s.compareBufferA := by simp [handleCtc]
@[simp] theorem handleCtc_compareBufferB (c0 : Byte) : (handleCtc c0 s).compareBufferB = s.compareBufferB := by simp [handleCtc]
@[simp] theorem handleCtc_interruptMask (c0 : Byte) : (handleCtc c0 s).interruptMask = s.interruptMask := by simp [handleCtc]
@[simp] theorem handleCtc_outputPinSinkA (c0 : Byte) : (handleCtc c0 s).outputPinSinkA = s.outputPinSinkA := by simp [handleCtc]
@[simp] theorem handleCtc_outputPinSinkB (c0 : Byte) : (handleCtc c0 s).outputPinSinkB = s.outputPinSinkB := by simp [handleCtc]
@[simp] theorem handleCtc_inhibitNextCompareMatch (c0 : Byte) : (handleCtc c0 s).inhibitNextCompareMatch = s.inhibitNextCompareMatch := by simp [handleCtc]
@[simp] theorem handleCtc_excessTicks (c0 : Byte) : (handleCtc c0 s).excessTicks = s.excessTicks := by simp [handleCtc]
@[simp] theorem handleCtc_params (c0 : Byte) : (handleCtc c0 s).params = s.params := by simp [handleCtc]
@[simp] theorem handleCtc_pending (c0 : Byte) : (handleCtc c0 s).pending = s.pending := by simp [handleCtc]
@[simp] theorem handleCtc_answers (c0 : Byte) : (handleCtc c0 s).answers = s.answers := by simp [handleCtc]
@[simp] theorem handleCtc_asked (c0 : Byte) : (handleCtc c0 s).asked = s.asked := by simp [handleCtc]
@[simp] theorem handleCtc_result (c0 : Byte) : (handleCtc c0 s).result = s.result := by simp [handleCtc]

@[simp] theorem handleFast_controlA (top c0 : Byte) : (handleFast top c0 s).controlA = s.controlA := by simp only [handleFast]; split <;> simp
@[simp] theorem handleFast_controlB (top c0 : Byte) : (handleFast top c0 s).controlB = s.controlB := by simp only [handleFast]; split <;> simp
@[simp] theorem handleFast_compareBufferA (top c0 : Byte) : (handleFast top c0 s).compareBufferA = s.compareBufferA := by simp only [handleFast]; split <;> simp
@[simp] theorem handleFast_compareBufferB (top c0 : Byte) : (handleFast top c0 s).compareBufferB = s.compareBufferB := by simp only [handleFast]; split <;> simp
@[simp] theorem handleFast_interruptMask (top c0 : Byte) : (handleFast top c0 s).interruptMask = s.interruptMask := by simp only [handleFast]; split <;> simp
@[simp] theorem handleFast_outputPinSinkA (top c0 : Byte) : (handleFast top c0 s).outputPinSinkA = s.outputPinSinkA := by simp only [handleFast]; split <;> simp
@[simp] theorem handleFast_outputPinSinkB (top c0 : Byte) : (handleFast top c0 s).outputPinSinkB = s.outputPinSinkB := by simp only [handleFast]; split <;> simp
@[simp] theorem handleFast_inhibitNextCompareMatch (top c0 : Byte) : (handleFast top c0 s).inhibitNextCompareMatch = s.inhibitNextCompareMatch := by simp only [handleFast]; split <;> simp
@[simp] theorem handleFast_excessTicks (top c0 : Byte) : (handleFast top c0 s).excessTicks = s.excessTicks := by simp only [handleFast]; split <;> simp
@[simp] theorem handleFast_params (top c0 : Byte) : (handleFast top c0 s).params = s.params := by simp only [handleFast]; split <;> simp
@[simp] theorem handleFast_pending (top c0 : Byte) : (handleFast top c0 s).pending = s.pending := by simp only [handleFast]; split <;> simp
@[simp] theorem handleFast_answers (top c0 : Byte) : (handleFast top c0 s).answers = s.answers := by simp only [handleFast]; split <;> simp
@[simp] theorem handleFast_asked (top c0 : Byte) : (handleFast top c0 s).asked = s.asked := by simp only [handleFast]; split <;> simp
@[simp] theorem handleFast_result (top c0 : Byte) : (handleFast top c0 s).result = s.result := by simp only [handleFast]; split <;> simp

@[simp] theorem handlePhase_controlA (top c0 : Byte) : (handlePhase top c0 s).controlA = s.controlA := by simp only [handlePhase]; split <;> simp
@[simp] theorem handlePhase_controlB (top c0 : Byte) : (handlePhase top c0 s).controlB = s.controlB := by simp only [handlePhase]; split <;> simp
@[simp] theorem handlePhase_count (top c0 : Byte) : (handlePhase top c0 s).count = s.count := by simp only [handlePhase]; split <;> simp
@[simp] theorem handlePhase_compareBufferA (top c0 : Byte) : (handlePhase top c0 s).compareBufferA = s.compareBufferA := by simp only [handlePhase]; split <;> simp
@[simp] theorem handlePhase_compareBufferB (top c0 : Byte) : (handlePhase top c0 s).compareBufferB = s.compareBufferB := by simp only [handlePhase]; split <;> simp
@[simp] theorem handlePhase_interruptMask (top c0 : Byte) : (handlePhase top c0 s).interruptMask = s.interruptMask := by simp only [handlePhase]; split <;> simp
@[simp] theorem handlePhase_outputPinSinkA (top c0 : Byte) : (handlePhase top c0 s).outputPinSinkA = s.outputPinSinkA := by simp only [handlePhase]; split <;> simp
@[simp] theorem handlePhase_outputPinSinkB (top c0 : Byte) : (handlePhase top c0 s).outputPinSinkB = s.outputPinSinkB := by simp only [handlePhase]; split <;> simp
@[simp] theorem handlePhase_inhibitNextCompareMatch (top c0 : Byte) : (handlePhase top c0 s).inhibitNextCompareMatch = s.inhibitNextCompareMatch := by simp only [handlePhase]; split <;> simp
@[simp] theorem handlePhase_excessTicks (top c0 : Byte) : (handlePhase top c0 s).excessTicks = s.excessTicks := by simp only [handlePhase]; split <;> simp
@[simp] theorem handlePhase_params (top c0 : Byte) : (handlePhase top c0 s).params = s.params := by simp only [handlePhase]; split <;> simp
@[simp] theorem handlePhase_pending (top c0 : Byte) : (handlePhase top c0 s).pending = s.pending := by simp only [handlePhase]; split <;> simp
@[simp] theorem handlePhase_answers (top c0 : Byte) : (handlePhase top c0 s).answers = s.answers := by simp only [handlePhase]; split <;> simp
@[simp] theorem handlePhase_asked (top c0 : Byte) : (handlePhase top c0 s).asked = s.asked := by simp only [handlePhase]; split <;> simp
@[simp] theorem handlePhase_result (top c0 : Byte) : (handlePhase top c0 s).result = s.result := by simp only [handlePhase]; split <;> simp

@[simp] theorem handleMode_controlA (m : Mode) (c0 : Byte) : (handleMode m c0 s).controlA = s.controlA := by cases m <;> simp [handleMode]
@[simp] theorem handleMode_controlB (m : Mode) (c0 : Byte) : (handleMode m c0 s).controlB = s.controlB := by cases m <;> simp [handleMode]
@[simp] theorem handleMode_compareBufferA (m : Mode) (c0 : Byte) : (handleMode m c0 s).compareBufferA = s.compareBufferA := by cases m <;> simp [handleMode]
@[simp] theorem handleMode_compareBufferB (m : Mode) (c0 : Byte) : (handleMode m c0 s).compareBufferB = s.compareBufferB := by cases m <;> simp [handleMode]
@[simp] theorem handleMode_interruptMask (m : Mode) (c0 : Byte) : (handleMode m c0 s).interruptMask = s.interruptMask := by cases m <;> simp [handleMode]
@[simp] theorem handleMode_outputPinSinkA (m : Mode) (c0 : Byte) : (handleMode m c0 s).outputPinSinkA = s.outputPinSinkA := by cases m <;> simp [handleMode]
@[simp] theorem handleMode_outputPinSinkB (m : Mode) (c0 : Byte) : (handleMode m c0 s).outputPinSinkB = s.outputPinSinkB := by cases m <;> simp [handleMode]
@[simp] theorem handleMode_inhibitNextCompareMatch (m : Mode) (c0 : Byte) : (handleMode m c0 s).inhibitNextCompareMatch = s.inhibitNextCompareMatch := by cases m <;> simp [handleMode]
@[simp] theorem handleMode_excessTicks (m : Mode) (c0 : Byte) : (handleMode m c0 s).excessTicks = s.excessTicks := by cases m <;> simp [handleMode]
@[simp] theorem handleMode_params (m : Mode) (c0 : Byte) : (handleMode m c0 s).params = s.params := by cases m <;> simp [handleMode]
@[simp] theorem handleMode_pending (m : Mode) (c0 : Byte) : (handleMode m c0 s).pending = s.pending := by cases m <;> simp [handleMode]
@[simp] theorem handleMode_answers (m : Mode) (c0 : Byte) : (handleMode m c0 s).answers = s.answers := by cases m <;> simp [handleMode]
@[simp] theorem handleMode_asked (m : Mode) (c0 : Byte) : (handleMode m c0 s).asked = s.asked := by cases m <;> simp [handleMode]
@[simp] theorem handleMode_result (m : Mode) (c0 : Byte) : (handleMode m c0 s).result = s.result := by cases m <;> simp [handleMode]

@[simp] theorem tickAs_controlA (m : Mode) : (tickAs m s).controlA = s.controlA := by simp [tickAs]
@[simp] theorem tickAs_controlB (m : Mode) : (tickAs m s).controlB = s.controlB := by simp [tickAs]
@[simp] theorem tickAs_compareBufferA (m : Mode) : (tickAs m s).compareBufferA = s.compareBufferA := by simp [tickAs]
@[simp] theorem tickAs_compareBufferB (m : Mode) : (tickAs m s).compareBufferB = s.compareBufferB := by simp [tickAs]
@[simp] theorem tickAs_interruptMask (m : Mode) : (tickAs m s).interruptMask = s.interruptMask := by simp [tickAs]
@[simp] theorem tickAs_outputPinSinkA (m : Mode) : (tickAs m s).outputPinSinkA = s.outputPinSinkA := by simp [tickAs]
@[simp] theorem tickAs_outputPinSinkB (m : Mode) : (tickAs m s).outputPinSinkB = s.outputPinSinkB := by simp [tickAs]
@[simp] theorem tickAs_excessTicks (m : Mode) : (tickAs m s).excessTicks = s.excessTicks := by simp [tickAs]
@[simp] theorem tickAs_params (m : Mode) : (tickAs m s).params = s.params := by simp [tickAs]
@[simp] theorem tickAs_pending (m : Mode) : (tickAs m s).pending = s.pending := by simp [tickAs]
@[simp] theorem tickAs_result (m : Mode) : (tickAs m s).result = s.result := by simp [tickAs]

@[simp] theorem tick_controlA : (tick s).controlA = s.controlA := by simp [tick]
@[simp] theorem tick_controlB : (tick s).controlB = s.controlB := by simp [tick]
@[simp] theorem tick_compareBufferA : (tick s).compareBufferA = s.compareBufferA := by simp [tick]
@[simp] theorem tick_compareBufferB : (tick s).compareBufferB = s.compareBufferB := by simp [tick]
@[simp] theorem tick_interruptMask : (tick s).interruptMask = s.interruptMask := by simp [tick]
@[simp] theorem tick_outputPinSinkA : (tick s).outputPinSinkA = s.outputPinSinkA := by simp [tick]
@[simp] theorem tick_outputPinSinkB : (tick s).outputPinSinkB = s.outputPinSinkB := by simp [tick]
@[simp] theorem tick_excessTicks : (tick s).excessTicks = s.excessTicks := by simp [tick]
@[simp] theorem tick_params : (tick s).params = s.params := by simp [tick]
@[simp] theorem tick_pending : (tick s).pending = s.pending := by simp [tick]
@[simp] theorem tick_result : (tick s).result = s.result := by simp [tick]

@[simp] theorem forcePin_controlA (X : Pin) (b : Bool) : (forcePin X b s).controlA = s.controlA := by unfold forcePin; (repeat' split) <;> simp
@[simp] theorem forcePin_controlB (X : Pin) (b : Bool) : (forcePin X b s).controlB = s.controlB := by unfold forcePin; (repeat' split) <;> simp
@[simp] theorem forcePin_count (X : Pin) (b : Bool) : (forcePin X b s).count = s.count := by unfold forcePin; (repeat' split) <;> simp
@[simp] theorem forcePin_compareA (X : Pin) (b : Bool) : (forcePin X b s).compareA = s.compareA := by unfold forcePin; (repeat' split) <;> simp
@[simp] theorem forcePin_compareB (X : Pin) (b : Bool) : (forcePin X b s).compareB = s.compareB := by unfold forcePin; (repeat' split) <;> simp
@[simp] theorem forcePin_compareBufferA (X : Pin) (b : Bool) : (forcePin X b s).compareBufferA = s.compareBufferA := by unfold forcePin; (repeat' split) <;> simp
@[simp] theorem forcePin_compareBufferB (X : Pin) (b : Bool) : (forcePin X b s).compareBufferB = s.compareBufferB := by unfold forcePin; (repeat' split) <;> simp
@[simp] theorem forcePin_interruptMask (X : Pin) (b : Bool) : (forcePin X b s).interruptMask = s.interruptMask := by unfold forcePin; (repeat' split) <;> simp
@[simp] theorem forcePin_interruptFlags (X : Pin) (b : Bool) : (forcePin X b s).interruptFlags = s.interruptFlags := by unfold forcePin; (repeat' split) <;> simp
@[simp] theorem forcePin_countingDownwards (X : Pin) (b : Bool) : (forcePin X b s).countingDownwards = s.countingDownwards := by unfold forcePin; (repeat' split) <;> simp
@[simp] theorem forcePin_outputPinSinkA (X : Pin) (b : Bool) : (forcePin X b s).outputPinSinkA = s.outputPinSinkA := by unfold forcePin; (repeat' split) <;> simp
@[simp] theorem forcePin_outputPinSinkB (X : Pin) (b : Bool) : (forcePin X b s).outputPinSinkB = s.outputPinSinkB := by unfold forcePin; (repeat' split) <;> simp
@[simp] theorem forcePin_inhibitNextCompareMatch (X : Pin) (b : Bool) : (forcePin X b s).inhibitNextCompareMatch = s.inhibitNextCompareMatch := by unfold forcePin; (repeat' split) <;> simp
@[simp] theorem forcePin_excessTicks (X : Pin) (b : Bool) : (forcePin X b s).excessTicks = s.excessTicks := by unfold forcePin; (repeat' split) <;> simp
@[simp] theorem forcePin_params (X : Pin) (b : Bool) : (forcePin X b s).params = s.params := by unfold forcePin; (repeat' split) <;> simp
@[simp] theorem forcePin_pending (X : Pin) (b : Bool) : (forcePin X b s).pending = s.pending := by unfold forcePin; (repeat' split) <;> simp
@[simp] theorem forcePin_answers (X : Pin) (b : Bool) : (forcePin X b s).answers = s.answers := by unfold forcePin; (repeat' split) <;> simp
@[simp] theorem forcePin_asked (X : Pin) (b : Bool) : (forcePin X b s).asked = s.asked := by unfold forcePin; (repeat' split) <;> simp
@[simp] theorem forcePin_result (X : Pin) (b : Bool) : (forcePin X b s).result = s.result := by unfold forcePin; (repeat' split) <;> simp

@[simp] theorem forceCompare_controlA (a b : Bool) : (forceCompare a b s).controlA = s.controlA := by unfold forceCompare; (repeat' split) <;> simp
@[simp] theorem forceCompare_controlB (a b : Bool) : (forceCompare a b s).controlB = s.controlB := by unfold forceCompare; (repeat' split) <;> simp
@[simp] theorem forceCompare_count (a b : Bool) : (forceCompare a b s).count = s.count := by unfold forceCompare; (repeat' split) <;> simp
@[simp] theorem forceCompare_compareA (a b : Bool) : (forceCompare a b s).compareA = s.compareA := by unfold forceCompare; (repeat' split) <;> simp
@[simp] theorem forceCompare_compareB (a b : Bool) : (forceCompare a b s).compareB = s.compareB := by unfold forceCompare; (repeat' split) <;> simp
@[simp] theorem forceCompare_compareBufferA (a b : Bool) : (forceCompare a b s).compareBufferA = s.compareBufferA := by unfold forceCompare; (repeat' split) <;> simp
@[simp] theorem forceCompare_compareBufferB (a b : Bool) : (forceCompare a b s).compareBufferB = s.compareBufferB := by unfold forceCompare; (repeat' split) <;> simp
@[simp] theorem forceCompare_interruptMask (a b : Bool) : (forceCompare a b s).interruptMask = s.interruptMask := by unfold forceCompare; (repeat' split) <;> simp
@[simp] theorem forceCompare_interruptFlags (a b : Bool) : (forceCompare a b s).interruptFlags = s.interruptFlags := by unfold forceCompare; (repeat' split) <;> simp
@[simp] theorem forceCompare_countingDownwards (a b : Bool) : (forceCompare a b s).countingDownwards = s.countingDownwards := by unfold forceCompare; (repeat' split) <;> simp
@[simp] theorem forceCompare_outputPinSinkA (a b : Bool) : (forceCompare a b s).outputPinSinkA = s.outputPinSinkA := by unfold forceCompare; (repeat' split) <;> simp
@[simp] theorem forceCompare_outputPinSinkB (a b : Bool) : (forceCompare a b s).outputPinSinkB = s.outputPinSinkB := by unfold forceCompare; (repeat' split) <;> simp
@[simp] theorem forceCompare_inhibitNextCompareMatch (a b : Bool) : (forceCompare a b s).inhibitNextCompareMatch = s.inhibitNextCompareMatch := by unfold forceCompare; (repeat' split) <;> simp
@[simp] theorem forceCompare_excessTicks (a b : Bool) : (forceCompare a b s).excessTicks = s.excessTicks := by unfold forceCompare; (repeat' split) <;> simp
@[simp] theorem forceCompare_params (a b : Bool) : (forceCompare a b s).params = s.params := by unfold forceCompare; (repeat' split) <;> simp
@[simp] theorem forceCompare_pending (a b : Bool) : (forceCompare a b s).pending = s.pending := by unfold forceCompare; (repeat' split) <;> simp
@[simp] theorem forceCompare_answers (a b : Bool) : (forceCompare a b s).answers = s.answers := by unfold forceCompare; (repeat' split) <;> simp
@[simp] theorem forceCompare_asked (a b : Bool) : (forceCompare a b s).asked = s.asked := by unfold forceCompare; (repeat' split) <;> simp
@[simp] theorem forceCompare_result (a b : Bool) : (forceCompare a b s).result = s.result := by unfold forceCompare; (repeat' split) <;> simp

@[simp] theorem ticks_controlA (k : Nat) (s : State) : (ticks k s).controlA = s.controlA := by
  induction k generalizing s with
  | zero => rfl
  | succ k ih => simp [ticks, ih]
@[simp] theorem ticks_controlB (k : Nat) (s : State) : (ticks k s).controlB = s.controlB := by
  induction k generalizing s with
  | zero => rfl
  | succ k ih => simp [ticks, ih]
@[simp] theorem ticks_compareBufferA (k : Nat) (s : State) : (ticks k s).compareBufferA = s.compareBufferA := by
  induction k generalizing s with
  | zero => rfl
  | succ k ih => simp [ticks, ih]
@[simp] theorem ticks_compareBufferB (k : Nat) (s : State) : (ticks k s).compareBufferB = s.compareBufferB := by
  induction k generalizing s with
  | zero => rfl
  | succ k ih => simp [ticks, ih]
@[simp] theorem ticks_interruptMask (k : Nat) (s : State) : (ticks k s).interruptMask = s.interruptMask := by
  induction k generalizing s with
  | zero => rfl
  | succ k ih => simp [ticks, ih]
@[simp] theorem ticks_outputPinSinkA (k : Nat) (s : State) : (ticks k s).outputPinSinkA = s.outputPinSinkA := by
  induction k generalizing s with
  | zero => rfl
  | succ k ih => simp [ticks, ih]
@[simp] theorem ticks_outputPinSinkB (k : Nat) (s : State) : (ticks k s).outputPinSinkB = s.outputPinSinkB := by
  induction k generalizing s with
  | zero => rfl
  | succ k ih => simp [ticks, ih]
@[simp] theorem ticks_excessTicks (k : Nat) (s : State) : (ticks k s).excessTicks = s.excessTicks := by
  induction k generalizing s with
  | zero => rfl
  | succ k ih => simp [ticks, ih]
@[simp] theorem ticks_params (k : Nat) (s : State) : (ticks k s).params = s.params := by
  induction k generalizing s with
  | zero => rfl
  | succ k ih => simp [ticks, ih]
@[simp] theorem ticks_pending (k : Nat) (s : State) : (ticks k s).pending = s.pending := by
  induction k generalizing s with
  | zero => rfl
  | succ k ih => simp [ticks, ih]
@[simp] theorem ticks_result (k : Nat) (s : State) : (ticks k s).result = s.result := by
  induction k generalizing s with
  | zero => rfl
  | succ k ih => simp [ticks, ih]

/-! ### The fields an operation does write -/

@[simp] theorem emit_events (e : Event) : (emit e s).events = s.events ++ [e] := rfl
@[simp] theorem answer_result (r : Result) : (answer r s).result = r := rfl
@[simp] theorem raiseIf_interruptFlags (c : Bool) (v : Source) : (raiseIf c v s).interruptFlags = if c then s.interruptFlags ||| flagBit v else s.interruptFlags := rfl
@[simp] theorem clearFlags_interruptFlags (m : Byte) : (clearFlags m s).interruptFlags = s.interruptFlags &&& ~~~m := rfl
@[simp] theorem syncBuffers_compareA : (syncBuffers s).compareA = s.compareBufferA := rfl
@[simp] theorem syncBuffers_compareB : (syncBuffers s).compareB = s.compareBufferB := rfl
@[simp] theorem countUpward_countingDownwards : (countUpward s).countingDownwards = false := rfl
@[simp] theorem forceTopIf_count (c : Bool) : (forceTopIf c s).count = if c then 0xFF else s.count := rfl
@[simp] theorem advanceCounter_count : (advanceCounter s).count = if s.countingDownwards then s.count - 1 else s.count + 1 := rfl
@[simp] theorem takeAnswer_answers : (takeAnswer s).answers = s.answers.tail := rfl
@[simp] theorem takeAnswer_asked : (takeAnswer s).asked = s.asked + 1 := rfl
@[simp] theorem beginCommand_pending (rest : List HostCommand) : (beginCommand rest s).pending = rest := rfl
@[simp] theorem beginCommand_events (rest : List HostCommand) : (beginCommand rest s).events = [] := rfl
@[simp] theorem beginCommand_result (rest : List HostCommand) : (beginCommand rest s).result = .noResult := rfl

/-! ### The updates of `Safety` -/

@[simp] theorem drivenA_controlA (l : Bool) : (drivenA l s).controlA = s.controlA := rfl
@[simp] theorem drivenA_controlB (l : Bool) : (drivenA l s).controlB = s.controlB := rfl
@[simp] theorem drivenA_count (l : Bool) : (drivenA l s).count = s.count := rfl
@[simp] theorem drivenA_compareA (l : Bool) : (drivenA l s).compareA = s.compareA := rfl
@[simp] theorem drivenA_compareB (l : Bool) : (drivenA l s).compareB = s.compareB := rfl
@[simp] theorem drivenA_compareBufferA (l : Bool) : (drivenA l s).compareBufferA = s.compareBufferA := rfl
@[simp] theorem drivenA_compareBufferB (l : Bool) : (drivenA l s).compareBufferB = s.compareBufferB := rfl
@[simp] theorem drivenA_interruptMask (l : Bool) : (drivenA l s).interruptMask = s.interruptMask := rfl
@[simp] theorem drivenA_interruptFlags (l : Bool) : (drivenA l s).interruptFlags = s.interruptFlags := rfl
@[simp] theorem drivenA_countingDownwards (l : Bool) : (drivenA l s).countingDownwards = s.countingDownwards := rfl
@[simp] theorem drivenA_outputPinStateA (l : Bool) : (drivenA l s).outputPinStateA = l := rfl
@[simp] theorem drivenA_outputPinStateB (l : Bool) : (drivenA l s).outputPinStateB = s.outputPinStateB := rfl
@[simp] theorem drivenA_outputPinSinkA (l : Bool) : (drivenA l s).outputPinSinkA = s.outputPinSinkA := rfl
@[simp] theorem drivenA_outputPinSinkB (l : Bool) : (drivenA l s).outputPinSinkB = s.outputPinSinkB := rfl
@[simp] theorem drivenA_inhibitNextCompareMatch (l : Bool) : (drivenA l s).inhibitNextCompareMatch = s.inhibitNextCompareMatch := rfl
@[simp] theorem drivenA_excessTicks (l : Bool) : (drivenA l s).excessTicks = s.excessTicks := rfl
@[simp] theorem drivenA_params (l : Bool) : (drivenA l s).params = s.params := rfl
@[simp] theorem drivenA_pending (l : Bool) : (drivenA l s).pending = s.pending := rfl
@[simp] theorem drivenA_answers (l : Bool) : (drivenA l s).answers = s.answers := rfl
@[simp] theorem drivenA_asked (l : Bool) : (drivenA l s).asked = s.asked := rfl
@[simp] theorem drivenA_events (l : Bool) : (drivenA l s).events = s.events ++ if s.outputPinStateA = l then [] else called .a s.outputPinSinkA l := rfl
@[simp] theorem drivenA_result (l : Bool) : (drivenA l s).result = s.result := rfl

@[simp] theorem drivenB_controlA (l : Bool) : (drivenB l s).controlA = s.controlA := rfl
@[simp] theorem drivenB_controlB (l : Bool) : (drivenB l s).controlB = s.controlB := rfl
@[simp] theorem drivenB_count (l : Bool) : (drivenB l s).count = s.count := rfl
@[simp] theorem drivenB_compareA (l : Bool) : (drivenB l s).compareA = s.compareA := rfl
@[simp] theorem drivenB_compareB (l : Bool) : (drivenB l s).compareB = s.compareB := rfl
@[simp] theorem drivenB_compareBufferA (l : Bool) : (drivenB l s).compareBufferA = s.compareBufferA := rfl
@[simp] theorem drivenB_compareBufferB (l : Bool) : (drivenB l s).compareBufferB = s.compareBufferB := rfl
@[simp] theorem drivenB_interruptMask (l : Bool) : (drivenB l s).interruptMask = s.interruptMask := rfl
@[simp] theorem drivenB_interruptFlags (l : Bool) : (drivenB l s).interruptFlags = s.interruptFlags := rfl
@[simp] theorem drivenB_countingDownwards (l : Bool) : (drivenB l s).countingDownwards = s.countingDownwards := rfl
@[simp] theorem drivenB_outputPinStateA (l : Bool) : (drivenB l s).outputPinStateA = s.outputPinStateA := rfl
@[simp] theorem drivenB_outputPinStateB (l : Bool) : (drivenB l s).outputPinStateB = l := rfl
@[simp] theorem drivenB_outputPinSinkA (l : Bool) : (drivenB l s).outputPinSinkA = s.outputPinSinkA := rfl
@[simp] theorem drivenB_outputPinSinkB (l : Bool) : (drivenB l s).outputPinSinkB = s.outputPinSinkB := rfl
@[simp] theorem drivenB_inhibitNextCompareMatch (l : Bool) : (drivenB l s).inhibitNextCompareMatch = s.inhibitNextCompareMatch := rfl
@[simp] theorem drivenB_excessTicks (l : Bool) : (drivenB l s).excessTicks = s.excessTicks := rfl
@[simp] theorem drivenB_params (l : Bool) : (drivenB l s).params = s.params := rfl
@[simp] theorem drivenB_pending (l : Bool) : (drivenB l s).pending = s.pending := rfl
@[simp] theorem drivenB_answers (l : Bool) : (drivenB l s).answers = s.answers := rfl
@[simp] theorem drivenB_asked (l : Bool) : (drivenB l s).asked = s.asked := rfl
@[simp] theorem drivenB_events (l : Bool) : (drivenB l s).events = s.events ++ if s.outputPinStateB = l then [] else called .b s.outputPinSinkB l := rfl
@[simp] theorem drivenB_result (l : Bool) : (drivenB l s).result = s.result := rfl

@[simp] theorem detected_controlA : (detected s).controlA = s.controlA := rfl
@[simp] theorem detected_controlB : (detected s).controlB = s.controlB := rfl
@[simp] theorem detected_count : (detected s).count = s.count := rfl
@[simp] theorem detected_compareA : (detected s).compareA = s.compareA := rfl
@[simp] theorem detected_compareB : (detected s).compareB = s.compareB := rfl
@[simp] theorem detected_compareBufferA : (detected s).compareBufferA = s.compareBufferA := rfl
@[simp] theorem detected_compareBufferB : (detected s).compareBufferB = s.compareBufferB := rfl
@[simp] theorem detected_interruptMask : (detected s).interruptMask = s.interruptMask := rfl
@[simp] theorem detected_interruptFlags : (detected s).interruptFlags = detectedFlags s := rfl
@[simp] theorem detected_countingDownwards : (detected s).countingDownwards = s.countingDownwards := rfl
@[simp] theorem detected_outputPinStateA : (detected s).outputPinStateA = s.outputPinStateA := rfl
@[simp] theorem detected_outputPinStateB : (detected s).outputPinStateB = s.outputPinStateB := rfl
@[simp] theorem detected_outputPinSinkA : (detected s).outputPinSinkA = s.outputPinSinkA := rfl
@[simp] theorem detected_outputPinSinkB : (detected s).outputPinSinkB = s.outputPinSinkB := rfl
@[simp] theorem detected_inhibitNextCompareMatch : (detected s).inhibitNextCompareMatch = false := rfl
@[simp] theorem detected_excessTicks : (detected s).excessTicks = s.excessTicks := rfl
@[simp] theorem detected_params : (detected s).params = s.params := rfl
@[simp] theorem detected_pending : (detected s).pending = s.pending := rfl
@[simp] theorem detected_answers : (detected s).answers = s.answers := rfl
@[simp] theorem detected_asked : (detected s).asked = s.asked := rfl
@[simp] theorem detected_events : (detected s).events = s.events := rfl
@[simp] theorem detected_result : (detected s).result = s.result := rfl

@[simp] theorem askedOnce_controlA : (askedOnce s).controlA = s.controlA := rfl
@[simp] theorem askedOnce_controlB : (askedOnce s).controlB = s.controlB := rfl
@[simp] theorem askedOnce_count : (askedOnce s).count = s.count := rfl
@[simp] theorem askedOnce_compareA : (askedOnce s).compareA = s.compareA := rfl
@[simp] theorem askedOnce_compareB : (askedOnce s).compareB = s.compareB := rfl
@[simp] theorem askedOnce_compareBufferA : (askedOnce s).compareBufferA = s.compareBufferA := rfl
@[simp] theorem askedOnce_compareBufferB : (askedOnce s).compareBufferB = s.compareBufferB := rfl
@[simp] theorem askedOnce_interruptMask : (askedOnce s).interruptMask = s.interruptMask := rfl
@[simp] theorem askedOnce_interruptFlags : (askedOnce s).interruptFlags = s.interruptFlags := rfl
@[simp] theorem askedOnce_countingDownwards : (askedOnce s).countingDownwards = s.countingDownwards := rfl
@[simp] theorem askedOnce_outputPinStateA : (askedOnce s).outputPinStateA = s.outputPinStateA := rfl
@[simp] theorem askedOnce_outputPinStateB : (askedOnce s).outputPinStateB = s.outputPinStateB := rfl
@[simp] theorem askedOnce_outputPinSinkA : (askedOnce s).outputPinSinkA = s.outputPinSinkA := rfl
@[simp] theorem askedOnce_outputPinSinkB : (askedOnce s).outputPinSinkB = s.outputPinSinkB := rfl
@[simp] theorem askedOnce_inhibitNextCompareMatch : (askedOnce s).inhibitNextCompareMatch = s.inhibitNextCompareMatch := rfl
@[simp] theorem askedOnce_excessTicks : (askedOnce s).excessTicks = s.excessTicks := rfl
@[simp] theorem askedOnce_params : (askedOnce s).params = s.params := rfl
@[simp] theorem askedOnce_pending : (askedOnce s).pending = s.pending := rfl
@[simp] theorem askedOnce_answers : (askedOnce s).answers = s.answers.tail := rfl
@[simp] theorem askedOnce_asked : (askedOnce s).asked = s.asked + 1 := rfl
@[simp] theorem askedOnce_events : (askedOnce s).events = s.events := rfl
@[simp] theorem askedOnce_result : (askedOnce s).result = s.result := rfl

/-! ### Per-pin reads -/

@[simp] theorem compareOf_a : s.compareOf .a = s.compareA := rfl
@[simp] theorem compareOf_b : s.compareOf .b = s.compareB := rfl
@[simp] theorem pinLevel_a : s.pinLevel .a = s.outputPinStateA := rfl
@[simp] theorem pinLevel_b : s.pinLevel .b = s.outputPinStateB := rfl
@[simp] theorem pinSink_a : s.pinSink .a = s.outputPinSinkA := rfl
@[simp] theorem pinSink_b : s.pinSink .b = s.outputPinSinkB := rfl

end Sys2Proof.Machine
end

