-- ==== Sys2Proof/Laws/Ops.lean ====
section
/-! SUPPORT. What each shared operation can do, said once: the pin driver as `drivenA` and `drivenB`, the
pin logic as a step that touches one pin, detection as `detected`, the dispatcher's answer. -/

namespace Sys2Proof.Machine

variable (s : State)

/-! ### The pin driver -/

theorem setHigh_a : setHigh .a s = drivenA true s := by
  rcases h : s.outputPinStateA <;> rcases k : s.outputPinSinkA <;>
    ext1 <;> simp [setHigh, notify, writeLevel, emit, drivenA, called, State.pinLevel, State.pinSink, h, k]

theorem setHigh_b : setHigh .b s = drivenB true s := by
  rcases h : s.outputPinStateB <;> rcases k : s.outputPinSinkB <;>
    ext1 <;> simp [setHigh, notify, writeLevel, emit, drivenB, called, State.pinLevel, State.pinSink, h, k]

theorem setLow_a : setLow .a s = drivenA false s := by
  rcases h : s.outputPinStateA <;> rcases k : s.outputPinSinkA <;>
    ext1 <;> simp [setLow, notify, writeLevel, emit, drivenA, called, State.pinLevel, State.pinSink, h, k]

theorem setLow_b : setLow .b s = drivenB false s := by
  rcases h : s.outputPinStateB <;> rcases k : s.outputPinSinkB <;>
    ext1 <;> simp [setLow, notify, writeLevel, emit, drivenB, called, State.pinLevel, State.pinSink, h, k]

theorem toggle_a : toggle .a s = drivenA (!s.outputPinStateA) s := by
  rcases h : s.outputPinStateA <;> rcases k : s.outputPinSinkA <;>
    ext1 <;> simp [toggle, notify, writeLevel, emit, drivenA, called, State.pinLevel, State.pinSink, h, k]

theorem toggle_b : toggle .b s = drivenB (!s.outputPinStateB) s := by
  rcases h : s.outputPinStateB <;> rcases k : s.outputPinSinkB <;>
    ext1 <;> simp [toggle, notify, writeLevel, emit, drivenB, called, State.pinLevel, State.pinSink, h, k]

/-! ### The pin logic touches one pin -/

/-- `t` is `s` but for the level of pin `X` and sink calls of `X` appended to the events. -/
def OnlyPin (X : Pin) (s t : State) : Prop :=
  ∃ (l : Bool) (calls : List Event),
    t = writeLevel X l { s with events := s.events ++ calls } ∧ ∀ e ∈ calls, ∃ l', e = .sinkCall X l'

variable {s} in
theorem OnlyPin.trans {X : Pin} {t u : State} (h : OnlyPin X s t) (k : OnlyPin X t u) :
    OnlyPin X s u := by
  obtain ⟨l, c, rfl, hc⟩ := h
  obtain ⟨l', c', rfl, hc'⟩ := k
  refine ⟨l', c ++ c', by cases X <;> simp [writeLevel], fun e he => ?_⟩
  rcases List.mem_append.mp he with h | h
  · exact hc e h
  · exact hc' e h

theorem OnlyPin.rfl (X : Pin) : OnlyPin X s s :=
  ⟨s.pinLevel X, [], by cases X <;> simp [writeLevel, State.pinLevel], by simp⟩

theorem onlyPin_write (X : Pin) (l : Bool) : OnlyPin X s (writeLevel X l s) :=
  ⟨l, [], by simp, by simp⟩

theorem onlyPin_notify (X : Pin) (l : Bool) : OnlyPin X s (notify X l s) := by
  unfold notify
  split
  · exact ⟨s.pinLevel X, [.sinkCall X l], by cases X <;> rfl, by simp⟩
  · exact .rfl s X

theorem onlyPin_setHigh (X : Pin) : OnlyPin X s (setHigh X s) := by
  unfold setHigh
  split
  · exact (onlyPin_write s X true).trans (onlyPin_notify _ X true)
  · exact .rfl s X

theorem onlyPin_setLow (X : Pin) : OnlyPin X s (setLow X s) := by
  unfold setLow
  split
  · exact (onlyPin_write s X false).trans (onlyPin_notify _ X false)
  · exact .rfl s X

theorem onlyPin_toggle (X : Pin) : OnlyPin X s (toggle X s) :=
  (onlyPin_write s X _).trans (onlyPin_notify _ X _)

theorem onlyPin_nonPwmAction (X : Pin) (m : Com) : OnlyPin X s (nonPwmAction X m s) := by
  cases m
  · exact .rfl s X
  · exact onlyPin_toggle s X
  · exact onlyPin_setLow s X
  · exact onlyPin_setHigh s X

theorem onlyPin_pwmToggle (X : Pin) (g : Bool) : OnlyPin X s (pwmToggle X g s) := by
  unfold pwmToggle
  split
  · next h => rw [h.1]; exact onlyPin_toggle s .a
  · exact .rfl s X

theorem onlyPin_fastBottomAction (X : Pin) (m : Com) : OnlyPin X s (fastBottomAction X m s) := by
  cases m
  · exact .rfl s X
  · exact .rfl s X
  · exact onlyPin_setHigh s X
  · exact onlyPin_setLow s X

theorem onlyPin_fastMatchAction (X : Pin) (m : Com) (g : Bool) :
    OnlyPin X s (fastMatchAction X m g s) := by
  cases m
  · exact .rfl s X
  · exact onlyPin_pwmToggle s X g
  · exact onlyPin_setLow s X
  · exact onlyPin_setHigh s X

theorem onlyPin_fastPinLogic (X : Pin) (m : Com) (g : Bool) (c0 : Byte) :
    OnlyPin X s (fastPinLogic X m g c0 s) := by
  have hm (b : State) (hb : OnlyPin X s b) :
      OnlyPin X s (if c0 = b.compareOf X then fastMatchAction X m g b else b) := by
    split
    · exact hb.trans (onlyPin_fastMatchAction b X m g)
    · exact hb
  refine hm (if c0 = 0 then fastBottomAction X m s else s) ?_
  split
  · exact onlyPin_fastBottomAction s X m
  · exact .rfl s X

theorem onlyPin_phasePinLogic (X : Pin) (m : Com) (g : Bool) (c0 : Byte) :
    OnlyPin X s (phasePinLogic X m g c0 s) := by
  unfold phasePinLogic phaseMatchAction
  split
  · cases m <;> simp only
    · exact .rfl s X
    · exact onlyPin_pwmToggle s X g
    · split
      · exact onlyPin_setHigh s X
      · exact onlyPin_setLow s X
    · split
      · exact onlyPin_setLow s X
      · exact onlyPin_setHigh s X
  · exact .rfl s X

theorem onlyPin_nonPwmPin (X : Pin) (c0 : Byte) : OnlyPin X s (nonPwmPin X c0 s) := by
  unfold nonPwmPin
  split
  · exact onlyPin_nonPwmAction s X _
  · exact .rfl s X

theorem onlyPin_forcePin (X : Pin) (b : Bool) : OnlyPin X s (forcePin X b s) := by
  unfold forcePin
  split
  · exact onlyPin_nonPwmAction s X _
  · exact .rfl s X

/-- With COM = 0 a pin's logic does nothing, in every mode. -/
theorem nonPwmAction_com0 (X : Pin) : nonPwmAction X .com0 s = s := rfl
theorem fastPinLogic_com0 (X : Pin) (g : Bool) (c0 : Byte) : fastPinLogic X .com0 g c0 s = s := by
  simp [fastPinLogic, fastBottomAction, fastMatchAction]
theorem phasePinLogic_com0 (X : Pin) (g : Bool) (c0 : Byte) : phasePinLogic X .com0 g c0 s = s := by
  simp [phasePinLogic, phaseMatchAction]

/-! ### Detection -/

theorem detect_eq_detected : detect s.count s = detected s := by
  unfold detect detected detectedFlags raiseIf flagBit
  by_cases hi : s.inhibitNextCompareMatch = true <;> by_cases ha : s.count = s.compareA <;>
    by_cases hb : s.count = s.compareB <;> ext1 <;> simp_all

/-! ### The dispatcher -/

theorem dispatchCase_none : dispatchCase none s = askedOnce s := rfl

theorem dispatchCase_some (v : Source) :
    dispatchCase (some v) s =
      if (answerOf s).intEnabled then
        { askedOnce s with
          interruptFlags := s.interruptFlags &&& ~~~flagBit v
          events := s.events ++ requestEvents v (answerOf s).handled }
      else askedOnce s := by
  rcases h : answerOf s with ⟨e, d⟩
  have h' : s.hostAnswer = ⟨e, d⟩ := h
  cases e <;> cases d <;>
    simp [dispatchCase, h', grant, takeAnswer, emit, clearFlags, askedOnce, requestEvents]

/-- The selector sees a source exactly where flag and mask bit are set. -/
theorem irqBits_getLsbD (i : Nat) (h : i < 3) :
    s.irqBits.getLsbD i = (s.interruptFlags.getLsbD i && s.interruptMask.getLsbD i) := by
  simp [State.irqBits, h]

theorem dispatch_interruptFlags :
    (dispatch s).interruptFlags
      = dispatchedFlags (answerOf s).intEnabled s.interruptFlags s.interruptMask := by
  unfold dispatch irqSelect dispatchedFlags
  simp only [irqBits_getLsbD s 0 (by omega), irqBits_getLsbD s 1 (by omega),
    irqBits_getLsbD s 2 (by omega), Bool.and_eq_true]
  repeat' split
  all_goals simp_all [dispatchCase_some, dispatchCase_none, askedOnce, flagBit]

theorem dispatch_events : ∃ req : List Event, (dispatch s).events = s.events ++ req ∧
    (req = [] ∨ ∃ v, req = requestEvents v (answerOf s).handled) := by
  unfold dispatch
  rcases irqSelect s.irqBits with _ | v
  · exact ⟨[], by simp [dispatchCase_none, askedOnce], .inl rfl⟩
  · rw [dispatchCase_some]
    split
    · exact ⟨_, rfl, .inr ⟨v, rfl⟩⟩
    · exact ⟨[], by simp [askedOnce], .inl rfl⟩

theorem dispatch_asked : (dispatch s).asked = s.asked + 1 := by
  unfold dispatch
  rcases irqSelect s.irqBits with _ | v
  · rfl
  · rw [dispatchCase_some]; split <;> rfl

theorem dispatch_answers : (dispatch s).answers = s.answers.tail := by
  unfold dispatch
  rcases irqSelect s.irqBits with _ | v
  · rfl
  · rw [dispatchCase_some]; split <;> rfl

end Sys2Proof.Machine
end

