-- ==== Sys2Proof/Laws/Carry.lean ====
section
/-! SUPPORT. A tick neither reads nor writes the carried remainder and the result, so changing them
commutes with every operation of a tick; and running ticks composes. -/

namespace Sys2Proof.Machine

/-- The carried remainder and the result replaced. -/
def carry (e : Nat) (r : Result) (s : State) : State := { s with excessTicks := e, result := r }

variable (e : Nat) (r : Result) (s : State)

theorem emit_carry (v : Event) : emit v (carry e r s) = carry e r (emit v s) := rfl

theorem writeLevel_carry (X : Pin) (l : Bool) :
    writeLevel X l (carry e r s) = carry e r (writeLevel X l s) := by
  cases X <;> rfl

theorem pinSink_carry (X : Pin) : (carry e r s).pinSink X = s.pinSink X := by cases X <;> rfl

theorem pinLevel_carry (X : Pin) : (carry e r s).pinLevel X = s.pinLevel X := by cases X <;> rfl

theorem compareOf_carry (X : Pin) : (carry e r s).compareOf X = s.compareOf X := by cases X <;> rfl

theorem notify_carry (X : Pin) (l : Bool) : notify X l (carry e r s) = carry e r (notify X l s) := by
  unfold notify
  rw [pinSink_carry]
  split <;> rfl

theorem setHigh_carry (X : Pin) : setHigh X (carry e r s) = carry e r (setHigh X s) := by
  unfold setHigh
  rw [pinLevel_carry, writeLevel_carry, notify_carry]
  split <;> rfl

theorem setLow_carry (X : Pin) : setLow X (carry e r s) = carry e r (setLow X s) := by
  unfold setLow
  rw [pinLevel_carry, writeLevel_carry, notify_carry]
  split <;> rfl

theorem toggle_carry (X : Pin) : toggle X (carry e r s) = carry e r (toggle X s) := by
  unfold toggle
  rw [pinLevel_carry, writeLevel_carry, notify_carry]

theorem nonPwmAction_carry (X : Pin) (m : Com) :
    nonPwmAction X m (carry e r s) = carry e r (nonPwmAction X m s) := by
  cases m
  · rfl
  · exact toggle_carry e r s X
  · exact setLow_carry e r s X
  · exact setHigh_carry e r s X

theorem pwmToggle_carry (X : Pin) (g : Bool) :
    pwmToggle X g (carry e r s) = carry e r (pwmToggle X g s) := by
  unfold pwmToggle
  rw [toggle_carry]
  split <;> rfl

theorem fastBottomAction_carry (X : Pin) (m : Com) :
    fastBottomAction X m (carry e r s) = carry e r (fastBottomAction X m s) := by
  cases m
  · rfl
  · rfl
  · exact setHigh_carry e r s X
  · exact setLow_carry e r s X

theorem fastMatchAction_carry (X : Pin) (m : Com) (g : Bool) :
    fastMatchAction X m g (carry e r s) = carry e r (fastMatchAction X m g s) := by
  cases m
  · rfl
  · exact pwmToggle_carry e r s X g
  · exact setLow_carry e r s X
  · exact setHigh_carry e r s X

theorem fastPinLogic_carry (X : Pin) (m : Com) (g : Bool) (c0 : Byte) :
    fastPinLogic X m g c0 (carry e r s) = carry e r (fastPinLogic X m g c0 s) := by
  have hb : (if c0 = 0 then fastBottomAction X m (carry e r s) else carry e r s)
      = carry e r (if c0 = 0 then fastBottomAction X m s else s) := by
    rw [fastBottomAction_carry]; split <;> rfl
  unfold fastPinLogic
  simp only [hb, compareOf_carry, fastMatchAction_carry]
  generalize (if c0 = 0 then fastBottomAction X m s else s) = b
  split <;> rfl

theorem phaseMatchAction_carry (X : Pin) (m : Com) (g : Bool) :
    phaseMatchAction X m g (carry e r s) = carry e r (phaseMatchAction X m g s) := by
  cases m <;> simp only [phaseMatchAction, setHigh_carry, setLow_carry, pwmToggle_carry]
  all_goals
    rw [show (carry e r s).countingDownwards = s.countingDownwards from rfl]
    split <;> rfl

theorem phasePinLogic_carry (X : Pin) (m : Com) (g : Bool) (c0 : Byte) :
    phasePinLogic X m g c0 (carry e r s) = carry e r (phasePinLogic X m g c0 s) := by
  unfold phasePinLogic
  rw [compareOf_carry, phaseMatchAction_carry]
  split <;> rfl

theorem nonPwmPin_carry (X : Pin) (c0 : Byte) :
    nonPwmPin X c0 (carry e r s) = carry e r (nonPwmPin X c0 s) := by
  unfold nonPwmPin
  rw [compareOf_carry, nonPwmAction_carry]
  show (if _ then carry e r (nonPwmAction X (s.com X) s) else _) = _
  split <;> rfl

theorem fastPin_carry (X : Pin) (c0 : Byte) :
    fastPin X c0 (carry e r s) = carry e r (fastPin X c0 s) := fastPinLogic_carry e r s _ _ _ _

theorem phasePin_carry (X : Pin) (c0 : Byte) :
    phasePin X c0 (carry e r s) = carry e r (phasePin X c0 s) := phasePinLogic_carry e r s _ _ _ _

theorem turn_carry (top c0 : Byte) : turn top c0 (carry e r s) = carry e r (turn top c0 s) := by
  unfold turn
  rw [show (carry e r s).countingDownwards = s.countingDownwards from rfl]
  repeat' split
  all_goals rfl

theorem detect_carry (c0 : Byte) : detect c0 (carry e r s) = carry e r (detect c0 s) := by
  unfold detect
  rw [show (carry e r s).inhibitNextCompareMatch = s.inhibitNextCompareMatch from rfl]
  split <;> rfl

theorem handleMode_carry (m : Mode) (c0 : Byte) :
    handleMode m c0 (carry e r s) = carry e r (handleMode m c0 s) := by
  have hN : handleNormal c0 (carry e r s) = carry e r (handleNormal c0 s) := by
    unfold handleNormal
    rw [← nonPwmPin_carry, ← nonPwmPin_carry]; rfl
  have hC : handleCtc c0 (carry e r s) = carry e r (handleCtc c0 s) := by
    unfold handleCtc
    simp only
    rw [← nonPwmPin_carry, ← nonPwmPin_carry]; rfl
  have hF (top : Byte) : handleFast top c0 (carry e r s) = carry e r (handleFast top c0 s) := by
    unfold handleFast
    simp only
    rw [← fastPin_carry, ← fastPin_carry]
    congr 2
    split <;> rfl
  have hP (top : Byte) : handlePhase top c0 (carry e r s) = carry e r (handlePhase top c0 s) := by
    unfold handlePhase
    rw [← phasePin_carry, ← phasePin_carry, ← turn_carry]
    congr 3
    split <;> rfl
  cases m
  · exact hN
  · exact hP _
  · exact hC
  · exact hF _
  · exact hN
  · exact hP _
  · exact hN
  · exact hF _

theorem dispatch_carry : dispatch (carry e r s) = carry e r (dispatch s) := by
  show dispatchCase (irqSelect s.irqBits) (carry e r s) = _
  unfold dispatch
  rcases irqSelect s.irqBits with _ | v
  · rfl
  · simp only [dispatchCase_some]
    show (if (answerOf s).intEnabled then _ else _) = _
    split <;> rfl

theorem tickAs_carry (m : Mode) : tickAs m (carry e r s) = carry e r (tickAs m s) := by
  unfold tickAs
  rw [← dispatch_carry]
  show dispatch (advanceCounter (handleMode m s.count (detect s.count (carry e r s)))) = _
  rw [detect_carry, handleMode_carry]; rfl

theorem tick_carry : tick (carry e r s) = carry e r (tick s) := tickAs_carry e r s s.mode

theorem ticks_carry (k : Nat) : ticks k (carry e r s) = carry e r (ticks k s) := by
  induction k generalizing s with
  | zero => rfl
  | succ k ih => rw [ticks, tick_carry, ih]; rfl

/-! ### Runs of ticks -/

theorem ticks_add (j k : Nat) : ticks (j + k) s = ticks k (ticks j s) := by
  induction j generalizing s with
  | zero => rw [Nat.zero_add]; rfl
  | succ j ih => rw [Nat.succ_add]; exact ih (tick s)

theorem tick_mode : (tick s).mode = s.mode := by
  simp [tick, State.mode, State.ctrl16]

theorem tick_clock : (tick s).clock = s.clock := by
  simp [tick, State.clock, State.ctrl16]

theorem ticks_mode (k : Nat) : (ticks k s).mode = s.mode := by
  simp [State.mode, State.ctrl16]

theorem ticks_clock (k : Nat) : (ticks k s).clock = s.clock := by
  simp [State.clock, State.ctrl16]

theorem ticks_com (k : Nat) (X : Pin) : (ticks k s).com X = s.com X := by
  simp [State.com, State.ctrl16]

/-- A property that a tick keeps, a run of ticks keeps. -/
theorem ticks_induction (P : State → Prop) (step : ∀ s, P s → P (tick s)) (k : Nat) (h : P s) :
    P (ticks k s) := by
  induction k generalizing s with
  | zero => exact h
  | succ k ih => exact ih (tick s) (step s h)

theorem tickAs_asked (m : Mode) : (tickAs m s).asked = s.asked + 1 := by
  unfold tickAs
  rw [dispatch_asked]
  simp

theorem tickAs_answers (m : Mode) : (tickAs m s).answers = s.answers.tail := by
  unfold tickAs
  rw [dispatch_answers]
  simp

theorem ticks_asked (k : Nat) : (ticks k s).asked = s.asked + k := by
  induction k generalizing s with
  | zero => rfl
  | succ k ih => rw [ticks, ih, tick, tickAs_asked]; omega

/-- The running cases of ADVANCE, written with `carry`. -/
theorem advanceRunning_eq (d n : Nat) :
    advanceRunning d n s
      = carry ((s.excessTicks + n) % d) .ok (ticks ((s.excessTicks + n) / d) s) := rfl

end Sys2Proof.Machine
end

