-- ==== Sys2Proof/Laws/Exec.lean ====
section
/-! SUPPORT. What `exec` answers for each constructor: the meaning in terms of the shared operations, so
that a proof about an instruction cites one line. -/

namespace Sys2Proof.Machine

variable (s : State)

@[simp] theorem exec_rdCtrla :
    exec (.rdCtrla) s = .next (answer (.data (portRead .ctrla s)) s) := rfl
@[simp] theorem exec_wrCtrla (v : Byte) :
    exec (.wrCtrla v) s = .next (portWrite .ctrla v s) := rfl
@[simp] theorem exec_rdCtrlb :
    exec (.rdCtrlb) s = .next (answer (.data (portRead .ctrlb s)) s) := rfl
@[simp] theorem exec_wrCtrlb (v : Byte) :
    exec (.wrCtrlb v) s = .next (portWrite .ctrlb v s) := rfl
@[simp] theorem exec_rdCount :
    exec (.rdCount) s = .next (answer (.data (portRead .count s)) s) := rfl
@[simp] theorem exec_wrCount (v : Byte) :
    exec (.wrCount v) s = .next (portWrite .count v s) := rfl
@[simp] theorem exec_rdCmpa :
    exec (.rdCmpa) s = .next (answer (.data (portRead .cmpa s)) s) := rfl
@[simp] theorem exec_wrCmpa (v : Byte) :
    exec (.wrCmpa v) s = .next (portWrite .cmpa v s) := rfl
@[simp] theorem exec_rdCmpb :
    exec (.rdCmpb) s = .next (answer (.data (portRead .cmpb s)) s) := rfl
@[simp] theorem exec_wrCmpb (v : Byte) :
    exec (.wrCmpb v) s = .next (portWrite .cmpb v s) := rfl
@[simp] theorem exec_rdMask :
    exec (.rdMask) s = .next (answer (.data (portRead .mask s)) s) := rfl
@[simp] theorem exec_wrMask (v : Byte) :
    exec (.wrMask v) s = .next (portWrite .mask v s) := rfl
@[simp] theorem exec_rdFlags :
    exec (.rdFlags) s = .next (answer (.data (portRead .flags s)) s) := rfl
@[simp] theorem exec_wrFlags (v : Byte) :
    exec (.wrFlags v) s = .next (portWrite .flags v s) := rfl
@[simp] theorem exec_advance (n : Nat) :
    exec (.advance n) s = .next (advanceBy s.clock n s) := rfl
@[simp] theorem exec_foc (a : Bool) (b : Bool) :
    exec (.foc a b) s = .next (forceCompare a b s) := rfl
@[simp] theorem exec_attachSink (pin : Pin) (sink : Nat) :
    exec (.attachSink pin sink) s = .next (bindSink pin sink s) := rfl
@[simp] theorem exec_reset :
    exec (.reset) s = .next (resetTimer s) := rfl
@[simp] theorem exec_tickNormal :
    exec (.tickNormal) s = .next (tickAs .normal s) := rfl
@[simp] theorem exec_tickPcpwmFf :
    exec (.tickPcpwmFf) s = .next (tickAs .pcpwmFf s) := rfl
@[simp] theorem exec_tickCtc :
    exec (.tickCtc) s = .next (tickAs .ctc s) := rfl
@[simp] theorem exec_tickFastpwmFf :
    exec (.tickFastpwmFf) s = .next (tickAs .fastpwmFf s) := rfl
@[simp] theorem exec_tickReserved4 :
    exec (.tickReserved4) s = .next (tickAs .reserved4 s) := rfl
@[simp] theorem exec_tickPcpwmOcra :
    exec (.tickPcpwmOcra) s = .next (tickAs .pcpwmOcra s) := rfl
@[simp] theorem exec_tickReserved6 :
    exec (.tickReserved6) s = .next (tickAs .reserved6 s) := rfl
@[simp] theorem exec_tickFastpwmOcra :
    exec (.tickFastpwmOcra) s = .next (tickAs .fastpwmOcra s) := rfl
@[simp] theorem exec_clkStop (n : Nat) :
    exec (.clkStop n) s = .next (advanceBy .stop n s) := rfl
@[simp] theorem exec_clkDiv1 (n : Nat) :
    exec (.clkDiv1 n) s = .next (advanceBy .div1 n s) := rfl
@[simp] theorem exec_clkDiv8 (n : Nat) :
    exec (.clkDiv8 n) s = .next (advanceBy .div8 n s) := rfl
@[simp] theorem exec_clkDiv64 (n : Nat) :
    exec (.clkDiv64 n) s = .next (advanceBy .div64 n s) := rfl
@[simp] theorem exec_clkDiv256 (n : Nat) :
    exec (.clkDiv256 n) s = .next (advanceBy .div256 n s) := rfl
@[simp] theorem exec_clkDiv1024 (n : Nat) :
    exec (.clkDiv1024 n) s = .next (advanceBy .div1024 n s) := rfl
@[simp] theorem exec_clkExt6 (n : Nat) :
    exec (.clkExt6 n) s = .next (advanceBy .ext6 n s) := rfl
@[simp] theorem exec_clkExt7 (n : Nat) :
    exec (.clkExt7 n) s = .next (advanceBy .ext7 n s) := rfl
@[simp] theorem exec_pinAWgm0Com0 :
    exec (.pinAWgm0Com0) s = .next (nonPwmAction .a .com0 s) := rfl
@[simp] theorem exec_pinAWgm0Com1 :
    exec (.pinAWgm0Com1) s = .next (nonPwmAction .a .com1 s) := rfl
@[simp] theorem exec_pinAWgm0Com2 :
    exec (.pinAWgm0Com2) s = .next (nonPwmAction .a .com2 s) := rfl
@[simp] theorem exec_pinAWgm0Com3 :
    exec (.pinAWgm0Com3) s = .next (nonPwmAction .a .com3 s) := rfl
@[simp] theorem exec_pinBWgm0Com0 :
    exec (.pinBWgm0Com0) s = .next (nonPwmAction .b .com0 s) := rfl
@[simp] theorem exec_pinBWgm0Com1 :
    exec (.pinBWgm0Com1) s = .next (nonPwmAction .b .com1 s) := rfl
@[simp] theorem exec_pinBWgm0Com2 :
    exec (.pinBWgm0Com2) s = .next (nonPwmAction .b .com2 s) := rfl
@[simp] theorem exec_pinBWgm0Com3 :
    exec (.pinBWgm0Com3) s = .next (nonPwmAction .b .com3 s) := rfl
@[simp] theorem exec_pinAWgm1Com0 (c0 : Byte) :
    exec (.pinAWgm1Com0 c0) s = .next (phasePinLogic .a .com0 false c0 s) := rfl
@[simp] theorem exec_pinAWgm1Com1 (c0 : Byte) :
    exec (.pinAWgm1Com1 c0) s = .next (phasePinLogic .a .com1 false c0 s) := rfl
@[simp] theorem exec_pinAWgm1Com2 (c0 : Byte) :
    exec (.pinAWgm1Com2 c0) s = .next (phasePinLogic .a .com2 false c0 s) := rfl
@[simp] theorem exec_pinAWgm1Com3 (c0 : Byte) :
    exec (.pinAWgm1Com3 c0) s = .next (phasePinLogic .a .com3 false c0 s) := rfl
@[simp] theorem exec_pinBWgm1Com0 (c0 : Byte) :
    exec (.pinBWgm1Com0 c0) s = .next (phasePinLogic .b .com0 false c0 s) := rfl
@[simp] theorem exec_pinBWgm1Com1 (c0 : Byte) :
    exec (.pinBWgm1Com1 c0) s = .next (phasePinLogic .b .com1 false c0 s) := rfl
@[simp] theorem exec_pinBWgm1Com2 (c0 : Byte) :
    exec (.pinBWgm1Com2 c0) s = .next (phasePinLogic .b .com2 false c0 s) := rfl
@[simp] theorem exec_pinBWgm1Com3 (c0 : Byte) :
    exec (.pinBWgm1Com3 c0) s = .next (phasePinLogic .b .com3 false c0 s) := rfl
@[simp] theorem exec_pinAWgm2Com0 :
    exec (.pinAWgm2Com0) s = .next (nonPwmAction .a .com0 s) := rfl
@[simp] theorem exec_pinAWgm2Com1 :
    exec (.pinAWgm2Com1) s = .next (nonPwmAction .a .com1 s) := rfl
@[simp] theorem exec_pinAWgm2Com2 :
    exec (.pinAWgm2Com2) s = .next (nonPwmAction .a .com2 s) := rfl
@[simp] theorem exec_pinAWgm2Com3 :
    exec (.pinAWgm2Com3) s = .next (nonPwmAction .a .com3 s) := rfl
@[simp] theorem exec_pinBWgm2Com0 :
    exec (.pinBWgm2Com0) s = .next (nonPwmAction .b .com0 s) := rfl
@[simp] theorem exec_pinBWgm2Com1 :
    exec (.pinBWgm2Com1) s = .next (nonPwmAction .b .com1 s) := rfl
@[simp] theorem exec_pinBWgm2Com2 :
    exec (.pinBWgm2Com2) s = .next (nonPwmAction .b .com2 s) := rfl
@[simp] theorem exec_pinBWgm2Com3 :
    exec (.pinBWgm2Com3) s = .next (nonPwmAction .b .com3 s) := rfl
@[simp] theorem exec_pinAWgm3Com0 (c0 : Byte) :
    exec (.pinAWgm3Com0 c0) s = .next (fastPinLogic .a .com0 false c0 s) := rfl
@[simp] theorem exec_pinAWgm3Com1 (c0 : Byte) :
    exec (.pinAWgm3Com1 c0) s = .next (fastPinLogic .a .com1 false c0 s) := rfl
@[simp] theorem exec_pinAWgm3Com2 (c0 : Byte) :
    exec (.pinAWgm3Com2 c0) s = .next (fastPinLogic .a .com2 false c0 s) := rfl
@[simp] theorem exec_pinAWgm3Com3 (c0 : Byte) :
    exec (.pinAWgm3Com3 c0) s = .next (fastPinLogic .a .com3 false c0 s) := rfl
@[simp] theorem exec_pinBWgm3Com0 (c0 : Byte) :
    exec (.pinBWgm3Com0 c0) s = .next (fastPinLogic .b .com0 false c0 s) := rfl
@[simp] theorem exec_pinBWgm3Com1 (c0 : Byte) :
    exec (.pinBWgm3Com1 c0) s = .next (fastPinLogic .b .com1 false c0 s) := rfl
@[simp] theorem exec_pinBWgm3Com2 (c0 : Byte) :
    exec (.pinBWgm3Com2 c0) s = .next (fastPinLogic .b .com2 false c0 s) := rfl
@[simp] theorem exec_pinBWgm3Com3 (c0 : Byte) :
    exec (.pinBWgm3Com3 c0) s = .next (fastPinLogic .b .com3 false c0 s) := rfl
@[simp] theorem exec_pinAWgm4Com0 :
    exec (.pinAWgm4Com0) s = .next (nonPwmAction .a .com0 s) := rfl
@[simp] theorem exec_pinAWgm4Com1 :
    exec (.pinAWgm4Com1) s = .next (nonPwmAction .a .com1 s) := rfl
@[simp] theorem exec_pinAWgm4Com2 :
    exec (.pinAWgm4Com2) s = .next (nonPwmAction .a .com2 s) := rfl
@[simp] theorem exec_pinAWgm4Com3 :
    exec (.pinAWgm4Com3) s = .next (nonPwmAction .a .com3 s) := rfl
@[simp] theorem exec_pinBWgm4Com0 :
    exec (.pinBWgm4Com0) s = .next (nonPwmAction .b .com0 s) := rfl
@[simp] theorem exec_pinBWgm4Com1 :
    exec (.pinBWgm4Com1) s = .next (nonPwmAction .b .com1 s) := rfl
@[simp] theorem exec_pinBWgm4Com2 :
    exec (.pinBWgm4Com2) s = .next (nonPwmAction .b .com2 s) := rfl
@[simp] theorem exec_pinBWgm4Com3 :
    exec (.pinBWgm4Com3) s = .next (nonPwmAction .b .com3 s) := rfl
@[simp] theorem exec_pinAWgm5Com0 (c0 : Byte) :
    exec (.pinAWgm5Com0 c0) s = .next (phasePinLogic .a .com0 true c0 s) := rfl
@[simp] theorem exec_pinAWgm5Com1 (c0 : Byte) :
    exec (.pinAWgm5Com1 c0) s = .next (phasePinLogic .a .com1 true c0 s) := rfl
@[simp] theorem exec_pinAWgm5Com2 (c0 : Byte) :
    exec (.pinAWgm5Com2 c0) s = .next (phasePinLogic .a .com2 true c0 s) := rfl
@[simp] theorem exec_pinAWgm5Com3 (c0 : Byte) :
    exec (.pinAWgm5Com3 c0) s = .next (phasePinLogic .a .com3 true c0 s) := rfl
@[simp] theorem exec_pinBWgm5Com0 (c0 : Byte) :
    exec (.pinBWgm5Com0 c0) s = .next (phasePinLogic .b .com0 true c0 s) := rfl
@[simp] theorem exec_pinBWgm5Com1 (c0 : Byte) :
    exec (.pinBWgm5Com1 c0) s = .next (phasePinLogic .b .com1 true c0 s) := rfl
@[simp] theorem exec_pinBWgm5Com2 (c0 : Byte) :
    exec (.pinBWgm5Com2 c0) s = .next (phasePinLogic .b .com2 true c0 s) := rfl
@[simp] theorem exec_pinBWgm5Com3 (c0 : Byte) :
    exec (.pinBWgm5Com3 c0) s = .next (phasePinLogic .b .com3 true c0 s) := rfl
@[simp] theorem exec_pinAWgm6Com0 :
    exec (.pinAWgm6Com0) s = .next (nonPwmAction .a .com0 s) := rfl
@[simp] theorem exec_pinAWgm6Com1 :
    exec (.pinAWgm6Com1) s = .next (nonPwmAction .a .com1 s) := rfl
@[simp] theorem exec_pinAWgm6Com2 :
    exec (.pinAWgm6Com2) s = .next (nonPwmAction .a .com2 s) := rfl
@[simp] theorem exec_pinAWgm6Com3 :
    exec (.pinAWgm6Com3) s = .next (nonPwmAction .a .com3 s) := rfl
@[simp] theorem exec_pinBWgm6Com0 :
    exec (.pinBWgm6Com0) s = .next (nonPwmAction .b .com0 s) := rfl
@[simp] theorem exec_pinBWgm6Com1 :
    exec (.pinBWgm6Com1) s = .next (nonPwmAction .b .com1 s) := rfl
@[simp] theorem exec_pinBWgm6Com2 :
    exec (.pinBWgm6Com2) s = .next (nonPwmAction .b .com2 s) := rfl
@[simp] theorem exec_pinBWgm6Com3 :
    exec (.pinBWgm6Com3) s = .next (nonPwmAction .b .com3 s) := rfl
@[simp] theorem exec_pinAWgm7Com0 (c0 : Byte) :
    exec (.pinAWgm7Com0 c0) s = .next (fastPinLogic .a .com0 true c0 s) := rfl
@[simp] theorem exec_pinAWgm7Com1 (c0 : Byte) :
    exec (.pinAWgm7Com1 c0) s = .next (fastPinLogic .a .com1 true c0 s) := rfl
@[simp] theorem exec_pinAWgm7Com2 (c0 : Byte) :
    exec (.pinAWgm7Com2 c0) s = .next (fastPinLogic .a .com2 true c0 s) := rfl
@[simp] theorem exec_pinAWgm7Com3 (c0 : Byte) :
    exec (.pinAWgm7Com3 c0) s = .next (fastPinLogic .a .com3 true c0 s) := rfl
@[simp] theorem exec_pinBWgm7Com0 (c0 : Byte) :
    exec (.pinBWgm7Com0 c0) s = .next (fastPinLogic .b .com0 true c0 s) := rfl
@[simp] theorem exec_pinBWgm7Com1 (c0 : Byte) :
    exec (.pinBWgm7Com1 c0) s = .next (fastPinLogic .b .com1 true c0 s) := rfl
@[simp] theorem exec_pinBWgm7Com2 (c0 : Byte) :
    exec (.pinBWgm7Com2 c0) s = .next (fastPinLogic .b .com2 true c0 s) := rfl
@[simp] theorem exec_pinBWgm7Com3 (c0 : Byte) :
    exec (.pinBWgm7Com3 c0) s = .next (fastPinLogic .b .com3 true c0 s) := rfl
@[simp] theorem exec_dispatchOvf :
    exec (.dispatchOvf) s = .next (dispatchCase (some .ovf) s) := rfl
@[simp] theorem exec_dispatchCompa :
    exec (.dispatchCompa) s = .next (dispatchCase (some .compa) s) := rfl
@[simp] theorem exec_dispatchCompb :
    exec (.dispatchCompb) s = .next (dispatchCase (some .compb) s) := rfl
@[simp] theorem exec_dispatchNone :
    exec (.dispatchNone) s = .next (dispatchCase none s) := rfl

end Sys2Proof.Machine
end

