-- ==== Sys2Proof/Laws/Decode.lean ====
section
/-! SUPPORT. Lemmas about decoding: the fields of a concatenated word, the rows selected by a field, and
what `exec` does with a selected row. -/

namespace Sys2Proof

/-! ### Fields of `high ++ low` -/

theorem append_getLsbD (h x : Byte) (i : Nat) :
    BitVec.getLsbD (w := 16) (h ++ x) i = if i < 8 then x.getLsbD i else h.getLsbD (i - 8) := by
  rw [BitVec.getLsbD_append]

theorem append_extract_high (h x : Byte) (lo len : Nat) :
    BitVec.extractLsb' (n := 16) (8 + lo) len (h ++ x) = h.extractLsb' lo len := by
  ext i hi
  simp only [BitVec.getElem_extractLsb', append_getLsbD]
  rw [if_neg (by omega)]
  congr 1; omega

theorem append_extract_low (h x : Byte) (lo len : Nat) (hl : lo + len ≤ 8) :
    BitVec.extractLsb' (n := 16) lo len (h ++ x) = x.extractLsb' lo len := by
  ext i hi
  simp only [BitVec.getElem_extractLsb', append_getLsbD]
  rw [if_pos (by omega)]

/-- A word is its head byte and its data byte. -/
theorem word_eq_append (w : Word16) :
    w = (w.extractLsb' 8 8 : Byte) ++ (w.extractLsb' 0 8 : Byte) := by
  ext i hi
  rw [← BitVec.getLsbD_eq_getElem hi, ← BitVec.getLsbD_eq_getElem hi, append_getLsbD]
  by_cases h : i < 8
  · simp [h]
  · rw [if_neg h, BitVec.getLsbD_extractLsb']
    rw [decide_eq_true (by omega : i - 8 < 8), Bool.true_and]
    congr 1; omega

theorem append_eq_append_iff (h x h' x' : Byte) :
    ((h ++ x : Word16) = h' ++ x') ↔ h = h' ∧ x = x' := by
  constructor
  · intro e
    have e1 := append_extract_high h x 0 8
    have e2 := append_extract_low h x 0 8 (by omega)
    rw [e, append_extract_high h' x' 0 8, BitVec.extractLsb'_eq_self, BitVec.extractLsb'_eq_self]
      at e1
    rw [e, append_extract_low h' x' 0 8 (by omega), BitVec.extractLsb'_eq_self,
      BitVec.extractLsb'_eq_self] at e2
    exact ⟨e1.symm, e2.symm⟩
  · rintro ⟨rfl, rfl⟩; rfl

theorem wgmField_append (b a : Byte) :
    wgmField (b ++ a) = b.extractLsb' 3 1 ++ a.extractLsb' 0 2 := by
  unfold wgmField
  rw [append_extract_low b a 0 2 (by omega), append_extract_high b a 3 1]

theorem csField_append (b a : Byte) : csField (b ++ a) = b.extractLsb' 0 3 :=
  append_extract_high b a 0 3

theorem comField_a_append (b a : Byte) : comField .a (b ++ a) = a.extractLsb' 6 2 :=
  append_extract_low _ _ _ _ (by omega)

theorem comField_b_append (b a : Byte) : comField .b (b ++ a) = a.extractLsb' 4 2 :=
  append_extract_low _ _ _ _ (by omega)

theorem togenField_append (b a : Byte) : togenField (b ++ a) = b.getLsbD 3 :=
  append_getLsbD b a 11

/-- The decoder on a word given as head byte and data byte. -/
theorem decodeHcw_append (h x : Byte) (n k : Nat) :
    decodeHcw (h ++ x) n k =
      (let op : BitVec 4 := h.extractLsb' 4 4
       let arg : BitVec 4 := h.extractLsb' 0 4
       if op = 0 then (portOfIndex arg).map readOf
       else if op = 1 then (portOfIndex arg).map (fun p => writeOf p x)
       else if op = 2 then if arg = 0 ∧ x = 0 then some (.advance n) else none
       else if op = 3 then
         if arg.extractLsb' 2 2 = 0 ∧ x = 0 then some (.foc (arg.getLsbD 0) (arg.getLsbD 1))
         else none
       else if op = 4 then
         if arg.extractLsb' 1 3 = 0 ∧ x = 0 then some (.attachSink (pinOfBit (arg.getLsbD 0)) k)
         else none
       else if op = 5 then if arg = 0 ∧ x = 0 then some .reset else none
       else none) := by
  unfold decodeHcw
  rw [append_extract_high h x 4 4, append_extract_high h x 0 4,
    append_extract_low h x 0 8 (by omega), BitVec.extractLsb'_eq_self]

/-! ### Selected rows -/

namespace Machine

/-- Executing the tick row of a mode. -/
theorem exec_tickOf (m : Mode) (s : State) : exec (tickOf m) s = .next (tickAs m s) := by
  cases m <;> rfl

/-- Executing the clock row of a clock select. -/
theorem exec_clockOf (c : ClockSelect) (n : Nat) (s : State) :
    exec (clockOf c n) s = .next (advanceBy c n s) := by
  cases c <;> rfl

/-- Executing the dispatcher row of a selected source. -/
theorem exec_dispatchOf (o : Option Source) (s : State) :
    exec (dispatchOf o) s = .next (dispatchCase o s) := by
  rcases o with _ | v
  · rfl
  · cases v <;> rfl

/-- Executing a pin row of a non-PWM mode. -/
theorem exec_pinLogicOf_nonPwm (X : Pin) (m : Mode) (c : Com) (c0 : Byte) (s : State)
    (h : isPwm m = false) : exec (pinLogicOf X m c c0) s = .next (nonPwmAction X c s) := by
  cases X <;> cases m <;> cases c <;> first | rfl | exact absurd h (by decide)

/-- Executing a pin row of a fast PWM mode. -/
theorem exec_pinLogicOf_fast (X : Pin) (m : Mode) (c : Com) (c0 : Byte) (s : State)
    (h : m = .fastpwmFf ∨ m = .fastpwmOcra) :
    exec (pinLogicOf X m c c0) s
      = .next (fastPinLogic X c (decide (m = .fastpwmOcra)) c0 s) := by
  rcases h with rfl | rfl <;> cases X <;> cases c <;> rfl

/-- Executing a pin row of a phase-correct mode. -/
theorem exec_pinLogicOf_phase (X : Pin) (m : Mode) (c : Com) (c0 : Byte) (s : State)
    (h : m = .pcpwmFf ∨ m = .pcpwmOcra) :
    exec (pinLogicOf X m c c0) s
      = .next (phasePinLogic X c (decide (m = .pcpwmOcra)) c0 s) := by
  rcases h with rfl | rfl <;> cases X <;> cases c <;> rfl

theorem exec_readOf (p : Port) (s : State) :
    exec (readOf p) s = .next (answer (.data (portRead p s)) s) := by
  cases p <;> rfl

theorem exec_writeOf (p : Port) (v : Byte) (s : State) :
    exec (writeOf p v) s = .next (portWrite p v s) := by
  cases p <;> rfl

theorem tickOf_injective {m m' : Mode} (h : tickOf m = tickOf m') : m = m' := by
  cases m <;> cases m' <;> first | rfl | exact absurd h (by decide)

/-- The mode is read off the tick row that the control word selects. -/
theorem mode_of_decodeWgm {s : State} {m : Mode}
    (h : decodeWgm (s.controlB ++ s.controlA) = tickOf m) : s.mode = m :=
  tickOf_injective h

/-- TOGEN is WGM[2] (30_encoding.md R78, R81). -/
theorem togen_eq (s : State) :
    s.togen = decide (s.mode ∈ [Mode.reserved4, .pcpwmOcra, .reserved6, .fastpwmOcra]) := by
  unfold State.togen State.mode State.ctrl16
  rw [togenField_append, wgmField_append]
  have hb : s.controlB.getLsbD 3 = (s.controlB.extractLsb' 3 1).getLsbD 0 := by simp
  rw [hb]
  generalize (BitVec.extractLsb' 3 1 s.controlB : BitVec 1) = z
  generalize (BitVec.extractLsb' 0 2 s.controlA : BitVec 2) = y
  revert y z; decide

/-- The PWM modes are those with `controlA[0] = 1` (30_encoding.md R75). -/
theorem isPwm_eq (s : State) : isPwm s.mode = s.controlA.getLsbD 0 := by
  unfold State.mode State.ctrl16
  rw [wgmField_append]
  have hb : s.controlA.getLsbD 0 = (s.controlA.extractLsb' 0 2).getLsbD 0 := by simp
  rw [hb]
  generalize (BitVec.extractLsb' 3 1 s.controlB : BitVec 1) = z
  generalize (BitVec.extractLsb' 0 2 s.controlA : BitVec 2) = y
  revert y z; decide

end Machine

end Sys2Proof
end

