-- ==== Sys2Proof/Laws/Meaning.lean ====
section
/-! SUPPORT. The instructions by kind: twelve shapes of meaning, so that a claim about every instruction is
a case analysis over these and not over the constructors. -/

namespace Sys2Proof.Machine

/-- `Meaning i f`: the instruction `i` turns `s` into `f s`. -/
inductive Meaning : Instr → (State → State) → Prop where
  | read (p : Port) : Meaning (readOf p) (fun s => answer (.data (portRead p s)) s)
  | write (p : Port) (v : Byte) : Meaning (writeOf p v) (portWrite p v)
  | advance (n : Nat) : Meaning (.advance n) (fun s => advanceBy s.clock n s)
  | foc (a b : Bool) : Meaning (.foc a b) (forceCompare a b)
  | attachSink (X : Pin) (k : Nat) : Meaning (.attachSink X k) (bindSink X k)
  | reset : Meaning .reset resetTimer
  | tick (m : Mode) : Meaning (tickOf m) (tickAs m)
  | clock (c : ClockSelect) (n : Nat) : Meaning (clockOf c n) (advanceBy c n)
  | nonPwm (X : Pin) (m : Mode) (c : Com) (c0 : Byte) (h : isPwm m = false) :
      Meaning (pinLogicOf X m c c0) (nonPwmAction X c)
  | fast (X : Pin) (m : Mode) (c : Com) (c0 : Byte) (h : m = .fastpwmFf ∨ m = .fastpwmOcra) :
      Meaning (pinLogicOf X m c c0) (fastPinLogic X c (decide (m = .fastpwmOcra)) c0)
  | phase (X : Pin) (m : Mode) (c : Com) (c0 : Byte) (h : m = .pcpwmFf ∨ m = .pcpwmOcra) :
      Meaning (pinLogicOf X m c c0) (phasePinLogic X c (decide (m = .pcpwmOcra)) c0)
  | dispatch (o : Option Source) : Meaning (dispatchOf o) (dispatchCase o)

/-- A meaning is what `exec` answers. -/
theorem Meaning.exec_eq {i : Instr} {f : State → State} (h : Meaning i f) (s : State) :
    exec i s = .next (f s) := by
  cases h with
  | read p => exact exec_readOf p s
  | write p v => exact exec_writeOf p v s
  | advance n => exact exec_advance s n
  | foc a b => exact exec_foc s a b
  | attachSink X k => exact exec_attachSink s X k
  | reset => exact exec_reset s
  | tick m => exact exec_tickOf m s
  | clock c n => exact exec_clockOf c n s
  | nonPwm X m c c0 h => exact exec_pinLogicOf_nonPwm X m c c0 s h
  | fast X m c c0 h => exact exec_pinLogicOf_fast X m c c0 s h
  | phase X m c c0 h => exact exec_pinLogicOf_phase X m c c0 s h
  | dispatch o => exact exec_dispatchOf o s

/-- The state that `exec` answers is the one the meaning gives. -/
theorem Meaning.eq_of_exec {i : Instr} {f : State → State} (h : Meaning i f) {s t : State}
    (e : exec i s = .next t) : t = f s :=
  (Host.Outcome.next.inj ((h.exec_eq s).symm.trans e)).symm

/-- Every instruction has a meaning. -/
theorem exists_meaning (i : Instr) : ∃ f, Meaning i f := by
  cases i with
  | rdCtrla => exact ⟨_, .read .ctrla⟩
  | wrCtrla v => exact ⟨_, .write .ctrla v⟩
  | rdCtrlb => exact ⟨_, .read .ctrlb⟩
  | wrCtrlb v => exact ⟨_, .write .ctrlb v⟩
  | rdCount => exact ⟨_, .read .count⟩
  | wrCount v => exact ⟨_, .write .count v⟩
  | rdCmpa => exact ⟨_, .read .cmpa⟩
  | wrCmpa v => exact ⟨_, .write .cmpa v⟩
  | rdCmpb => exact ⟨_, .read .cmpb⟩
  | wrCmpb v => exact ⟨_, .write .cmpb v⟩
  | rdMask => exact ⟨_, .read .mask⟩
  | wrMask v => exact ⟨_, .write .mask v⟩
  | rdFlags => exact ⟨_, .read .flags⟩
  | wrFlags v => exact ⟨_, .write .flags v⟩
  | advance n => exact ⟨_, .advance n⟩
  | foc a b => exact ⟨_, .foc a b⟩
  | attachSink X k => exact ⟨_, .attachSink X k⟩
  | reset => exact ⟨_, .reset⟩
  | tickNormal => exact ⟨_, .tick .normal⟩
  | tickPcpwmFf => exact ⟨_, .tick .pcpwmFf⟩
  | tickCtc => exact ⟨_, .tick .ctc⟩
  | tickFastpwmFf => exact ⟨_, .tick .fastpwmFf⟩
  | tickReserved4 => exact ⟨_, .tick .reserved4⟩
  | tickPcpwmOcra => exact ⟨_, .tick .pcpwmOcra⟩
  | tickReserved6 => exact ⟨_, .tick .reserved6⟩
  | tickFastpwmOcra => exact ⟨_, .tick .fastpwmOcra⟩
  | clkStop n => exact ⟨_, .clock .stop n⟩
  | clkDiv1 n => exact ⟨_, .clock .div1 n⟩
  | clkDiv8 n => exact ⟨_, .clock .div8 n⟩
  | clkDiv64 n => exact ⟨_, .clock .div64 n⟩
  | clkDiv256 n => exact ⟨_, .clock .div256 n⟩
  | clkDiv1024 n => exact ⟨_, .clock .div1024 n⟩
  | clkExt6 n => exact ⟨_, .clock .ext6 n⟩
  | clkExt7 n => exact ⟨_, .clock .ext7 n⟩
  | pinAWgm0Com0 => exact ⟨_, .nonPwm .a .normal .com0 0 rfl⟩
  | pinAWgm0Com1 => exact ⟨_, .nonPwm .a .normal .com1 0 rfl⟩
  | pinAWgm0Com2 => exact ⟨_, .nonPwm .a .normal .com2 0 rfl⟩
  | pinAWgm0Com3 => exact ⟨_, .nonPwm .a .normal .com3 0 rfl⟩
  | pinBWgm0Com0 => exact ⟨_, .nonPwm .b .normal .com0 0 rfl⟩
  | pinBWgm0Com1 => exact ⟨_, .nonPwm .b .normal .com1 0 rfl⟩
  | pinBWgm0Com2 => exact ⟨_, .nonPwm .b .normal .com2 0 rfl⟩
  | pinBWgm0Com3 => exact ⟨_, .nonPwm .b .normal .com3 0 rfl⟩
  | pinAWgm1Com0 c0 => exact ⟨_, .phase .a .pcpwmFf .com0 c0 (.inl rfl)⟩
  | pinAWgm1Com1 c0 => exact ⟨_, .phase .a .pcpwmFf .com1 c0 (.inl rfl)⟩
  | pinAWgm1Com2 c0 => exact ⟨_, .phase .a .pcpwmFf .com2 c0 (.inl rfl)⟩
  | pinAWgm1Com3 c0 => exact ⟨_, .phase .a .pcpwmFf .com3 c0 (.inl rfl)⟩
  | pinBWgm1Com0 c0 => exact ⟨_, .phase .b .pcpwmFf .com0 c0 (.inl rfl)⟩
  | pinBWgm1Com1 c0 => exact ⟨_, .phase .b .pcpwmFf .com1 c0 (.inl rfl)⟩
  | pinBWgm1Com2 c0 => exact ⟨_, .phase .b .pcpwmFf .com2 c0 (.inl rfl)⟩
  | pinBWgm1Com3 c0 => exact ⟨_, .phase .b .pcpwmFf .com3 c0 (.inl rfl)⟩
  | pinAWgm2Com0 => exact ⟨_, .nonPwm .a .ctc .com0 0 rfl⟩
  | pinAWgm2Com1 => exact ⟨_, .nonPwm .a .ctc .com1 0 rfl⟩
  | pinAWgm2Com2 => exact ⟨_, .nonPwm .a .ctc .com2 0 rfl⟩
  | pinAWgm2Com3 => exact ⟨_, .nonPwm .a .ctc .com3 0 rfl⟩
  | pinBWgm2Com0 => exact ⟨_, .nonPwm .b .ctc .com0 0 rfl⟩
  | pinBWgm2Com1 => exact ⟨_, .nonPwm .b .ctc .com1 0 rfl⟩
  | pinBWgm2Com2 => exact ⟨_, .nonPwm .b .ctc .com2 0 rfl⟩
  | pinBWgm2Com3 => exact ⟨_, .nonPwm .b .ctc .com3 0 rfl⟩
  | pinAWgm3Com0 c0 => exact ⟨_, .fast .a .fastpwmFf .com0 c0 (.inl rfl)⟩
  | pinAWgm3Com1 c0 => exact ⟨_, .fast .a .fastpwmFf .com1 c0 (.inl rfl)⟩
  | pinAWgm3Com2 c0 => exact ⟨_, .fast .a .fastpwmFf .com2 c0 (.inl rfl)⟩
  | pinAWgm3Com3 c0 => exact ⟨_, .fast .a .fastpwmFf .com3 c0 (.inl rfl)⟩
  | pinBWgm3Com0 c0 => exact ⟨_, .fast .b .fastpwmFf .com0 c0 (.inl rfl)⟩
  | pinBWgm3Com1 c0 => exact ⟨_, .fast .b .fastpwmFf .com1 c0 (.inl rfl)⟩
  | pinBWgm3Com2 c0 => exact ⟨_, .fast .b .fastpwmFf .com2 c0 (.inl rfl)⟩
  | pinBWgm3Com3 c0 => exact ⟨_, .fast .b .fastpwmFf .com3 c0 (.inl rfl)⟩
  | pinAWgm4Com0 => exact ⟨_, .nonPwm .a .reserved4 .com0 0 rfl⟩
  | pinAWgm4Com1 => exact ⟨_, .nonPwm .a .reserved4 .com1 0 rfl⟩
  | pinAWgm4Com2 => exact ⟨_, .nonPwm .a .reserved4 .com2 0 rfl⟩
  | pinAWgm4Com3 => exact ⟨_, .nonPwm .a .reserved4 .com3 0 rfl⟩
  | pinBWgm4Com0 => exact ⟨_, .nonPwm .b .reserved4 .com0 0 rfl⟩
  | pinBWgm4Com1 => exact ⟨_, .nonPwm .b .reserved4 .com1 0 rfl⟩
  | pinBWgm4Com2 => exact ⟨_, .nonPwm .b .reserved4 .com2 0 rfl⟩
  | pinBWgm4Com3 => exact ⟨_, .nonPwm .b .reserved4 .com3 0 rfl⟩
  | pinAWgm5Com0 c0 => exact ⟨_, .phase .a .pcpwmOcra .com0 c0 (.inr rfl)⟩
  | pinAWgm5Com1 c0 => exact ⟨_, .phase .a .pcpwmOcra .com1 c0 (.inr rfl)⟩
  | pinAWgm5Com2 c0 => exact ⟨_, .phase .a .pcpwmOcra .com2 c0 (.inr rfl)⟩
  | pinAWgm5Com3 c0 => exact ⟨_, .phase .a .pcpwmOcra .com3 c0 (.inr rfl)⟩
  | pinBWgm5Com0 c0 => exact ⟨_, .phase .b .pcpwmOcra .com0 c0 (.inr rfl)⟩
  | pinBWgm5Com1 c0 => exact ⟨_, .phase .b .pcpwmOcra .com1 c0 (.inr rfl)⟩
  | pinBWgm5Com2 c0 => exact ⟨_, .phase .b .pcpwmOcra .com2 c0 (.inr rfl)⟩
  | pinBWgm5Com3 c0 => exact ⟨_, .phase .b .pcpwmOcra .com3 c0 (.inr rfl)⟩
  | pinAWgm6Com0 => exact ⟨_, .nonPwm .a .reserved6 .com0 0 rfl⟩
  | pinAWgm6Com1 => exact ⟨_, .nonPwm .a .reserved6 .com1 0 rfl⟩
  | pinAWgm6Com2 => exact ⟨_, .nonPwm .a .reserved6 .com2 0 rfl⟩
  | pinAWgm6Com3 => exact ⟨_, .nonPwm .a .reserved6 .com3 0 rfl⟩
  | pinBWgm6Com0 => exact ⟨_, .nonPwm .b .reserved6 .com0 0 rfl⟩
  | pinBWgm6Com1 => exact ⟨_, .nonPwm .b .reserved6 .com1 0 rfl⟩
  | pinBWgm6Com2 => exact ⟨_, .nonPwm .b .reserved6 .com2 0 rfl⟩
  | pinBWgm6Com3 => exact ⟨_, .nonPwm .b .reserved6 .com3 0 rfl⟩
  | pinAWgm7Com0 c0 => exact ⟨_, .fast .a .fastpwmOcra .com0 c0 (.inr rfl)⟩
  | pinAWgm7Com1 c0 => exact ⟨_, .fast .a .fastpwmOcra .com1 c0 (.inr rfl)⟩
  | pinAWgm7Com2 c0 => exact ⟨_, .fast .a .fastpwmOcra .com2 c0 (.inr rfl)⟩
  | pinAWgm7Com3 c0 => exact ⟨_, .fast .a .fastpwmOcra .com3 c0 (.inr rfl)⟩
  | pinBWgm7Com0 c0 => exact ⟨_, .fast .b .fastpwmOcra .com0 c0 (.inr rfl)⟩
  | pinBWgm7Com1 c0 => exact ⟨_, .fast .b .fastpwmOcra .com1 c0 (.inr rfl)⟩
  | pinBWgm7Com2 c0 => exact ⟨_, .fast .b .fastpwmOcra .com2 c0 (.inr rfl)⟩
  | pinBWgm7Com3 c0 => exact ⟨_, .fast .b .fastpwmOcra .com3 c0 (.inr rfl)⟩
  | dispatchOvf => exact ⟨_, .dispatch (some .ovf)⟩
  | dispatchCompa => exact ⟨_, .dispatch (some .compa)⟩
  | dispatchCompb => exact ⟨_, .dispatch (some .compb)⟩
  | dispatchNone => exact ⟨_, .dispatch none⟩

end Sys2Proof.Machine
end

