-- ==== Sys2Proof/Laws/Observe.lean ====
section
/-! SUPPORT. The sinks and the handler answers are only observed: replacing them (and the events so far)
before an operation is replacing them after it, up to the events. -/

namespace Sys2Proof.Machine

/-- Sinks, listed answers and events replaced. -/
def veil (x y : Option Nat) (l : List HostAnswer) (ev : List Event) (s : State) : State :=
  { s with outputPinSinkA := x, outputPinSinkB := y, answers := l, events := ev }

/-- An operation that reads sinks, answers and events for its events only. -/
def Blind (op : State → State) : Prop :=
  ∀ x y l ev s, ∃ ev', op (veil x y l ev s) = veil x y l ev' (op s)

theorem Blind.comp {f g : State → State} (hf : Blind f) (hg : Blind g) : Blind (fun s => f (g s)) := by
  intro x y l ev s
  obtain ⟨e1, h1⟩ := hg x y l ev s
  obtain ⟨e2, h2⟩ := hf x y l e1 (g s)
  exact ⟨e2, by simp only [h1, h2]⟩

theorem Blind.self : Blind (fun s => s) := fun _ _ _ ev _ => ⟨ev, rfl⟩

/-- A choice between blind operations on a condition that reads none of the three. -/
theorem Blind.ite {p : State → Prop} [DecidablePred p] {f g : State → State} (hf : Blind f)
    (hg : Blind g) (hp : ∀ x y l ev s, p (veil x y l ev s) ↔ p s) :
    Blind (fun s => if p s then f s else g s) := by
  intro x y l ev s
  by_cases h : p s
  · simpa only [if_pos h, if_pos ((hp x y l ev s).mpr h)] using hf x y l ev s
  · simpa only [if_neg h, if_neg (mt (hp x y l ev s).mp h)] using hg x y l ev s

theorem compareOf_veil (x y l ev s) (X : Pin) : (veil x y l ev s).compareOf X = s.compareOf X := by
  cases X <;> rfl

theorem pinLevel_veil (x y l ev s) (X : Pin) : (veil x y l ev s).pinLevel X = s.pinLevel X := by
  cases X <;> rfl

theorem blind_writeLevel (X : Pin) (b : Bool) : Blind (writeLevel X b) :=
  fun _ _ _ ev _ => ⟨ev, by cases X <;> rfl⟩

/-- A notification changes nothing but the events. -/
theorem notify_eq (X : Pin) (b : Bool) (s : State) :
    notify X b s = { s with events := (notify X b s).events } := by
  unfold notify
  split <;> rfl

theorem blind_notify (X : Pin) (b : Bool) : Blind (notify X b) := by
  intro x y l ev s
  rw [notify_eq, notify_eq X b s]
  exact ⟨_, rfl⟩

theorem blind_setHigh (X : Pin) : Blind (setHigh X) :=
  .ite ((blind_notify X true).comp (blind_writeLevel X true)) .self
    (fun x y l ev s => by rw [pinLevel_veil])

theorem blind_setLow (X : Pin) : Blind (setLow X) :=
  .ite ((blind_notify X false).comp (blind_writeLevel X false)) .self
    (fun x y l ev s => by rw [pinLevel_veil])

theorem blind_toggle (X : Pin) : Blind (toggle X) := by
  intro x y l ev s
  unfold toggle
  rw [pinLevel_veil]
  exact ((blind_notify X _).comp (blind_writeLevel X _)) x y l ev s

theorem blind_nonPwmAction (X : Pin) (m : Com) : Blind (nonPwmAction X m) := by
  cases m
  · exact .self
  · exact blind_toggle X
  · exact blind_setLow X
  · exact blind_setHigh X

theorem blind_pwmToggle (X : Pin) (g : Bool) : Blind (pwmToggle X g) :=
  .ite (p := fun _ => X = .a ∧ g = true) (blind_toggle .a) .self (fun _ _ _ _ _ => Iff.rfl)

theorem blind_fastBottomAction (X : Pin) (m : Com) : Blind (fastBottomAction X m) := by
  cases m
  · exact .self
  · exact .self
  · exact blind_setHigh X
  · exact blind_setLow X

theorem blind_fastMatchAction (X : Pin) (m : Com) (g : Bool) : Blind (fastMatchAction X m g) := by
  cases m
  · exact .self
  · exact blind_pwmToggle X g
  · exact blind_setLow X
  · exact blind_setHigh X

theorem blind_fastPinLogic (X : Pin) (m : Com) (g : Bool) (c0 : Byte) :
    Blind (fastPinLogic X m g c0) :=
  (Blind.ite (p := fun s => c0 = s.compareOf X) (blind_fastMatchAction X m g) .self
    (fun x y l ev s => by rw [compareOf_veil])).comp
    (.ite (p := fun _ => c0 = 0) (blind_fastBottomAction X m) .self (fun _ _ _ _ _ => Iff.rfl))

theorem blind_phaseMatchAction (X : Pin) (m : Com) (g : Bool) : Blind (phaseMatchAction X m g) := by
  cases m
  · exact .self
  · exact blind_pwmToggle X g
  · exact .ite (p := fun s => s.countingDownwards = true) (blind_setHigh X) (blind_setLow X)
      (fun _ _ _ _ _ => Iff.rfl)
  · exact .ite (p := fun s => s.countingDownwards = true) (blind_setLow X) (blind_setHigh X)
      (fun _ _ _ _ _ => Iff.rfl)

theorem blind_phasePinLogic (X : Pin) (m : Com) (g : Bool) (c0 : Byte) :
    Blind (phasePinLogic X m g c0) :=
  .ite (p := fun s => c0 = s.compareOf X) (blind_phaseMatchAction X m g) .self
    (fun x y l ev s => by rw [compareOf_veil])

theorem blind_nonPwmPin (X : Pin) (c0 : Byte) : Blind (nonPwmPin X c0) :=
  .ite (p := fun s => s.compareOf X = c0) (fun x y l ev s => blind_nonPwmAction X (s.com X) x y l ev s)
    .self (fun x y l ev s => by rw [compareOf_veil])

theorem blind_forcePin (X : Pin) (b : Bool) : Blind (forcePin X b) :=
  .ite (p := fun s => b = true ∧ (s.params.focEqualityGated = false ∨ s.compareOf X = s.count))
    (fun x y l ev s => blind_nonPwmAction X (s.com X) x y l ev s) .self
    (fun x y l ev s => by rw [compareOf_veil]; exact Iff.rfl)

theorem blind_fastPin (X : Pin) (c0 : Byte) : Blind (fastPin X c0) :=
  fun x y l ev s => blind_fastPinLogic X (s.com X) s.togen c0 x y l ev s

theorem blind_phasePin (X : Pin) (c0 : Byte) : Blind (phasePin X c0) :=
  fun x y l ev s => blind_phasePinLogic X (s.com X) s.togen c0 x y l ev s

theorem blind_raiseIf (c : Bool) (v : Source) : Blind (raiseIf c v) := fun _ _ _ ev _ => ⟨ev, rfl⟩
theorem blind_syncBuffers : Blind syncBuffers := fun _ _ _ ev _ => ⟨ev, rfl⟩
theorem blind_countUpward : Blind countUpward := fun _ _ _ ev _ => ⟨ev, rfl⟩
theorem blind_forceTopIf (c : Bool) : Blind (forceTopIf c) := fun _ _ _ ev _ => ⟨ev, rfl⟩
theorem blind_advanceCounter : Blind advanceCounter := fun _ _ _ ev _ => ⟨ev, rfl⟩

theorem blind_detect (c0 : Byte) : Blind (detect c0) :=
  .ite (p := fun s => s.inhibitNextCompareMatch = true) (fun _ _ _ ev _ => ⟨ev, rfl⟩)
    (fun _ _ _ ev _ => ⟨ev, rfl⟩) (fun _ _ _ _ _ => Iff.rfl)

theorem blind_turn (top c0 : Byte) : Blind (turn top c0) :=
  .ite (p := fun s => s.countingDownwards = false)
    (.ite (p := fun _ => c0 = top) (fun _ _ _ ev _ => ⟨ev, rfl⟩) .self (fun _ _ _ _ _ => Iff.rfl))
    (.ite (p := fun _ => c0 = 0) (fun _ _ _ ev _ => ⟨ev, rfl⟩) .self (fun _ _ _ _ _ => Iff.rfl))
    (fun _ _ _ _ _ => Iff.rfl)

theorem blind_syncIf (p : Prop) [Decidable p] : Blind (fun s => if p then syncBuffers s else s) :=
  .ite (p := fun _ => p) blind_syncBuffers .self (fun _ _ _ _ _ => Iff.rfl)

theorem blind_handleMode (m : Mode) (c0 : Byte) : Blind (handleMode m c0) := by
  have hN : Blind (handleNormal c0) :=
    (blind_nonPwmPin .b c0).comp ((blind_nonPwmPin .a c0).comp ((blind_raiseIf _ _).comp
      (blind_countUpward.comp blind_syncBuffers)))
  have hC : Blind (handleCtc c0) :=
    fun x y l ev s => ((blind_nonPwmPin .b c0).comp ((blind_nonPwmPin .a c0).comp
      ((blind_forceTopIf (c0 == s.compareBufferA)).comp ((blind_raiseIf (c0 == 0xFF) .ovf).comp
      (blind_countUpward.comp blind_syncBuffers))))) x y l ev s
  have hF (top : Byte) : Blind (handleFast top c0) :=
    (blind_fastPin .b c0).comp ((blind_fastPin .a c0).comp ((blind_raiseIf _ _).comp
      ((blind_forceTopIf _).comp (blind_countUpward.comp (blind_syncIf (c0 = 0))))))
  have hP (top : Byte) : Blind (handlePhase top c0) :=
    (blind_phasePin .b c0).comp ((blind_phasePin .a c0).comp ((blind_turn top c0).comp
      (blind_syncIf (c0 = top))))
  cases m
  · exact hN
  · exact hP _
  · exact hC
  · exact hF _
  · exact hN
  · exact fun x y l ev s => hP s.compareA x y l ev s
  · exact hN
  · exact fun x y l ev s => hF s.compareA x y l ev s

/-- The dispatcher reads the answers for the global enable, and a handler for its events only. -/
theorem dispatchCase_veil (o : Option Source) (x y : Option Nat) (l : List HostAnswer)
    (ev : List Event) (s : State)
    (hl : l.map HostAnswer.intEnabled = s.answers.map HostAnswer.intEnabled) :
    ∃ ev', dispatchCase o (veil x y l ev s) = veil x y l.tail ev' (dispatchCase o s) := by
  rcases o with _ | v
  · exact ⟨ev, rfl⟩
  · have he : (answerOf (veil x y l ev s)).intEnabled = (answerOf s).intEnabled := by
      unfold answerOf
      show (l.headD (Config.freeAnswer s.asked)).intEnabled = _
      rcases l with _ | ⟨a, l⟩ <;> rcases hs : s.answers with _ | ⟨b, r⟩ <;> simp_all
    simp only [dispatchCase_some, he]
    split <;> exact ⟨_, rfl⟩

theorem tickAs_veil (m : Mode) (x y : Option Nat) (l : List HostAnswer) (ev : List Event) (s : State)
    (hl : l.map HostAnswer.intEnabled = s.answers.map HostAnswer.intEnabled) :
    ∃ ev', tickAs m (veil x y l ev s) = veil x y l.tail ev' (tickAs m s) := by
  obtain ⟨e1, h1⟩ := (blind_advanceCounter.comp ((blind_handleMode m s.count).comp
    (blind_detect s.count))) x y l ev s
  have h2 : tickAs m (veil x y l ev s)
      = dispatch (veil x y l e1 (advanceCounter (handleMode m s.count (detect s.count s)))) :=
    congrArg dispatch h1
  rw [h2]
  exact dispatchCase_veil _ x y l e1 _ (by simpa using hl)

theorem ticks_veil (k : Nat) (x y : Option Nat) (l : List HostAnswer) (ev : List Event) (s : State)
    (hl : l.map HostAnswer.intEnabled = s.answers.map HostAnswer.intEnabled) :
    ∃ ev', ticks k (veil x y l ev s) = veil x y (l.drop k) ev' (ticks k s) := by
  induction k generalizing l ev s with
  | zero => exact ⟨ev, rfl⟩
  | succ k ih =>
    obtain ⟨e1, h1⟩ := tickAs_veil s.mode x y l ev s hl
    have h2 : tick (veil x y l ev s) = veil x y l.tail e1 (tick s) := h1
    obtain ⟨e2, h3⟩ := ih l.tail e1 (tick s) (by
      rw [tick, tickAs_answers, List.map_tail, List.map_tail, hl])
    exact ⟨e2, by rw [ticks, h2, h3]; simp [ticks]⟩

theorem blind_forceCompare (a b : Bool) : Blind (forceCompare a b) :=
  .ite (p := fun s => isPwm s.mode = true) .self
    ((blind_forcePin .b b).comp (blind_forcePin .a a)) (fun _ _ _ _ _ => Iff.rfl)

theorem advanceBy_veil (c : ClockSelect) (n : Nat) (x y : Option Nat) (l : List HostAnswer)
    (ev : List Event) (s : State)
    (hl : l.map HostAnswer.intEnabled = s.answers.map HostAnswer.intEnabled) :
    ∃ k ev', advanceBy c n (veil x y l ev s) = veil x y (l.drop k) ev' (advanceBy c n s) := by
  have run (d : Nat) : ∃ k ev',
      advanceRunning d n (veil x y l ev s) = veil x y (l.drop k) ev' (advanceRunning d n s) := by
    obtain ⟨ev', h⟩ := ticks_veil ((s.excessTicks + n) / d) x y l ev s hl
    exact ⟨(s.excessTicks + n) / d, ev', congrArg (carry ((s.excessTicks + n) % d) .ok) h⟩
  cases c
  · exact ⟨0, ev, rfl⟩
  · exact run 1
  · exact run 8
  · exact run 64
  · exact run 256
  · exact run 1024
  · exact ⟨0, ev, rfl⟩
  · exact ⟨0, ev, rfl⟩

end Sys2Proof.Machine
end

