-- ==== Sys2Proof/Laws/PerInstr.lean ====
section
/-! SUPPORT. The family `Codec`, one lemma per constructor of `Instr`: the encoder answers in the format of
the instruction, and gives a host command a word of 30_encoding.md R88. -/

namespace Sys2Proof.Laws.Codec

/-- The encoding of an instruction has the instruction's format, and that of a host command is a
well-formed command word. -/
def Statement (i : Instr) : Prop :=
  (encode i).format = i.format ∧
    (i.isCommand = true → HostCommand.wf ⟨(encode i).word, 0, 0⟩ = true)

/-- Writes: the head byte alone makes the word fit, whatever the data byte. -/
theorem wf_of_writeHead (h v : Byte)
    (hh : h ∈ [0x10#8, 0x11#8, 0x12#8, 0x13#8, 0x14#8, 0x15#8, 0x16#8]) :
    HostCommand.wf ⟨hcwWord h v, 0, 0⟩ = true := by
  have hw : hcwWord h v &&& 0xFF00 = h ++ 0x00#8 := by
    rw [hcwWord, show (0xFF00 : Word16) = 0xFF#8 ++ 0x00#8 from rfl, BitVec.and_append]
    congr 1
    · exact BitVec.and_allOnes
    · exact BitVec.and_zero
  simp only [HostCommand.wf, commandPatterns, List.any_cons, List.any_nil, hw]
  simp only [List.mem_cons, List.not_mem_nil, or_false] at hh
  rcases hh with rfl | rfl | rfl | rfl | rfl | rfl | rfl <;> simp

theorem rdCtrla : Statement .rdCtrla := ⟨rfl, fun _ => rfl⟩
theorem wrCtrla (v : Byte) : Statement (.wrCtrla v) := ⟨rfl, fun _ => wf_of_writeHead _ v (by decide)⟩
theorem rdCtrlb : Statement .rdCtrlb := ⟨rfl, fun _ => rfl⟩
theorem wrCtrlb (v : Byte) : Statement (.wrCtrlb v) := ⟨rfl, fun _ => wf_of_writeHead _ v (by decide)⟩
theorem rdCount : Statement .rdCount := ⟨rfl, fun _ => rfl⟩
theorem wrCount (v : Byte) : Statement (.wrCount v) := ⟨rfl, fun _ => wf_of_writeHead _ v (by decide)⟩
theorem rdCmpa : Statement .rdCmpa := ⟨rfl, fun _ => rfl⟩
theorem wrCmpa (v : Byte) : Statement (.wrCmpa v) := ⟨rfl, fun _ => wf_of_writeHead _ v (by decide)⟩
theorem rdCmpb : Statement .rdCmpb := ⟨rfl, fun _ => rfl⟩
theorem wrCmpb (v : Byte) : Statement (.wrCmpb v) := ⟨rfl, fun _ => wf_of_writeHead _ v (by decide)⟩
theorem rdMask : Statement .rdMask := ⟨rfl, fun _ => rfl⟩
theorem wrMask (v : Byte) : Statement (.wrMask v) := ⟨rfl, fun _ => wf_of_writeHead _ v (by decide)⟩
theorem rdFlags : Statement .rdFlags := ⟨rfl, fun _ => rfl⟩
theorem wrFlags (v : Byte) : Statement (.wrFlags v) := ⟨rfl, fun _ => wf_of_writeHead _ v (by decide)⟩
theorem advance (n : Nat) : Statement (.advance n) := ⟨rfl, fun _ => by simp only [encode, hcw]; decide⟩
theorem foc (a b : Bool) : Statement (.foc a b) := ⟨rfl, fun _ => by cases a <;> cases b <;> decide⟩
theorem attachSink (pin : Pin) (sink : Nat) : Statement (.attachSink pin sink) := ⟨by cases pin <;> rfl, fun _ => by cases pin <;> simp only [encode, hcw] <;> decide⟩
theorem reset : Statement .reset := ⟨rfl, fun _ => rfl⟩
theorem tickNormal : Statement .tickNormal := ⟨rfl, fun h => absurd h Bool.false_ne_true⟩
theorem tickPcpwmFf : Statement .tickPcpwmFf := ⟨rfl, fun h => absurd h Bool.false_ne_true⟩
theorem tickCtc : Statement .tickCtc := ⟨rfl, fun h => absurd h Bool.false_ne_true⟩
theorem tickFastpwmFf : Statement .tickFastpwmFf := ⟨rfl, fun h => absurd h Bool.false_ne_true⟩
theorem tickReserved4 : Statement .tickReserved4 := ⟨rfl, fun h => absurd h Bool.false_ne_true⟩
theorem tickPcpwmOcra : Statement .tickPcpwmOcra := ⟨rfl, fun h => absurd h Bool.false_ne_true⟩
theorem tickReserved6 : Statement .tickReserved6 := ⟨rfl, fun h => absurd h Bool.false_ne_true⟩
theorem tickFastpwmOcra : Statement .tickFastpwmOcra := ⟨rfl, fun h => absurd h Bool.false_ne_true⟩
theorem clkStop (n : Nat) : Statement (.clkStop n) := ⟨rfl, fun h => absurd h Bool.false_ne_true⟩
theorem clkDiv1 (n : Nat) : Statement (.clkDiv1 n) := ⟨rfl, fun h => absurd h Bool.false_ne_true⟩
theorem clkDiv8 (n : Nat) : Statement (.clkDiv8 n) := ⟨rfl, fun h => absurd h Bool.false_ne_true⟩
theorem clkDiv64 (n : Nat) : Statement (.clkDiv64 n) := ⟨rfl, fun h => absurd h Bool.false_ne_true⟩
theorem clkDiv256 (n : Nat) : Statement (.clkDiv256 n) := ⟨rfl, fun h => absurd h Bool.false_ne_true⟩
theorem clkDiv1024 (n : Nat) : Statement (.clkDiv1024 n) := ⟨rfl, fun h => absurd h Bool.false_ne_true⟩
theorem clkExt6 (n : Nat) : Statement (.clkExt6 n) := ⟨rfl, fun h => absurd h Bool.false_ne_true⟩
theorem clkExt7 (n : Nat) : Statement (.clkExt7 n) := ⟨rfl, fun h => absurd h Bool.false_ne_true⟩
theorem pinAWgm0Com0 : Statement .pinAWgm0Com0 := ⟨rfl, fun h => absurd h Bool.false_ne_true⟩
theorem pinAWgm0Com1 : Statement .pinAWgm0Com1 := ⟨rfl, fun h => absurd h Bool.false_ne_true⟩
theorem pinAWgm0Com2 : Statement .pinAWgm0Com2 := ⟨rfl, fun h => absurd h Bool.false_ne_true⟩
theorem pinAWgm0Com3 : Statement .pinAWgm0Com3 := ⟨rfl, fun h => absurd h Bool.false_ne_true⟩
theorem pinBWgm0Com0 : Statement .pinBWgm0Com0 := ⟨rfl, fun h => absurd h Bool.false_ne_true⟩
theorem pinBWgm0Com1 : Statement .pinBWgm0Com1 := ⟨rfl, fun h => absurd h Bool.false_ne_true⟩
theorem pinBWgm0Com2 : Statement .pinBWgm0Com2 := ⟨rfl, fun h => absurd h Bool.false_ne_true⟩
theorem pinBWgm0Com3 : Statement .pinBWgm0Com3 := ⟨rfl, fun h => absurd h Bool.false_ne_true⟩
theorem pinAWgm1Com0 (c0 : Byte) : Statement (.pinAWgm1Com0 c0) := ⟨rfl, fun h => absurd h Bool.false_ne_true⟩
theorem pinAWgm1Com1 (c0 : Byte) : Statement (.pinAWgm1Com1 c0) := ⟨rfl, fun h => absurd h Bool.false_ne_true⟩
theorem pinAWgm1Com2 (c0 : Byte) : Statement (.pinAWgm1Com2 c0) := ⟨rfl, fun h => absurd h Bool.false_ne_true⟩
theorem pinAWgm1Com3 (c0 : Byte) : Statement (.pinAWgm1Com3 c0) := ⟨rfl, fun h => absurd h Bool.false_ne_true⟩
theorem pinBWgm1Com0 (c0 : Byte) : Statement (.pinBWgm1Com0 c0) := ⟨rfl, fun h => absurd h Bool.false_ne_true⟩
theorem pinBWgm1Com1 (c0 : Byte) : Statement (.pinBWgm1Com1 c0) := ⟨rfl, fun h => absurd h Bool.false_ne_true⟩
theorem pinBWgm1Com2 (c0 : Byte) : Statement (.pinBWgm1Com2 c0) := ⟨rfl, fun h => absurd h Bool.false_ne_true⟩
theorem pinBWgm1Com3 (c0 : Byte) : Statement (.pinBWgm1Com3 c0) := ⟨rfl, fun h => absurd h Bool.false_ne_true⟩
theorem pinAWgm2Com0 : Statement .pinAWgm2Com0 := ⟨rfl, fun h => absurd h Bool.false_ne_true⟩
theorem pinAWgm2Com1 : Statement .pinAWgm2Com1 := ⟨rfl, fun h => absurd h Bool.false_ne_true⟩
theorem pinAWgm2Com2 : Statement .pinAWgm2Com2 := ⟨rfl, fun h => absurd h Bool.false_ne_true⟩
theorem pinAWgm2Com3 : Statement .pinAWgm2Com3 := ⟨rfl, fun h => absurd h Bool.false_ne_true⟩
theorem pinBWgm2Com0 : Statement .pinBWgm2Com0 := ⟨rfl, fun h => absurd h Bool.false_ne_true⟩
theorem pinBWgm2Com1 : Statement .pinBWgm2Com1 := ⟨rfl, fun h => absurd h Bool.false_ne_true⟩
theorem pinBWgm2Com2 : Statement .pinBWgm2Com2 := ⟨rfl, fun h => absurd h Bool.false_ne_true⟩
theorem pinBWgm2Com3 : Statement .pinBWgm2Com3 := ⟨rfl, fun h => absurd h Bool.false_ne_true⟩
theorem pinAWgm3Com0 (c0 : Byte) : Statement (.pinAWgm3Com0 c0) := ⟨rfl, fun h => absurd h Bool.false_ne_true⟩
theorem pinAWgm3Com1 (c0 : Byte) : Statement (.pinAWgm3Com1 c0) := ⟨rfl, fun h => absurd h Bool.false_ne_true⟩
theorem pinAWgm3Com2 (c0 : Byte) : Statement (.pinAWgm3Com2 c0) := ⟨rfl, fun h => absurd h Bool.false_ne_true⟩
theorem pinAWgm3Com3 (c0 : Byte) : Statement (.pinAWgm3Com3 c0) := ⟨rfl, fun h => absurd h Bool.false_ne_true⟩
theorem pinBWgm3Com0 (c0 : Byte) : Statement (.pinBWgm3Com0 c0) := ⟨rfl, fun h => absurd h Bool.false_ne_true⟩
theorem pinBWgm3Com1 (c0 : Byte) : Statement (.pinBWgm3Com1 c0) := ⟨rfl, fun h => absurd h Bool.false_ne_true⟩
theorem pinBWgm3Com2 (c0 : Byte) : Statement (.pinBWgm3Com2 c0) := ⟨rfl, fun h => absurd h Bool.false_ne_true⟩
theorem pinBWgm3Com3 (c0 : Byte) : Statement (.pinBWgm3Com3 c0) := ⟨rfl, fun h => absurd h Bool.false_ne_true⟩
theorem pinAWgm4Com0 : Statement .pinAWgm4Com0 := ⟨rfl, fun h => absurd h Bool.false_ne_true⟩
theorem pinAWgm4Com1 : Statement .pinAWgm4Com1 := ⟨rfl, fun h => absurd h Bool.false_ne_true⟩
theorem pinAWgm4Com2 : Statement .pinAWgm4Com2 := ⟨rfl, fun h => absurd h Bool.false_ne_true⟩
theorem pinAWgm4Com3 : Statement .pinAWgm4Com3 := ⟨rfl, fun h => absurd h Bool.false_ne_true⟩
theorem pinBWgm4Com0 : Statement .pinBWgm4Com0 := ⟨rfl, fun h => absurd h Bool.false_ne_true⟩
theorem pinBWgm4Com1 : Statement .pinBWgm4Com1 := ⟨rfl, fun h => absurd h Bool.false_ne_true⟩
theorem pinBWgm4Com2 : Statement .pinBWgm4Com2 := ⟨rfl, fun h => absurd h Bool.false_ne_true⟩
theorem pinBWgm4Com3 : Statement .pinBWgm4Com3 := ⟨rfl, fun h => absurd h Bool.false_ne_true⟩
theorem pinAWgm5Com0 (c0 : Byte) : Statement (.pinAWgm5Com0 c0) := ⟨rfl, fun h => absurd h Bool.false_ne_true⟩
theorem pinAWgm5Com1 (c0 : Byte) : Statement (.pinAWgm5Com1 c0) := ⟨rfl, fun h => absurd h Bool.false_ne_true⟩
theorem pinAWgm5Com2 (c0 : Byte) : Statement (.pinAWgm5Com2 c0) := ⟨rfl, fun h => absurd h Bool.false_ne_true⟩
theorem pinAWgm5Com3 (c0 : Byte) : Statement (.pinAWgm5Com3 c0) := ⟨rfl, fun h => absurd h Bool.false_ne_true⟩
theorem pinBWgm5Com0 (c0 : Byte) : Statement (.pinBWgm5Com0 c0) := ⟨rfl, fun h => absurd h Bool.false_ne_true⟩
theorem pinBWgm5Com1 (c0 : Byte) : Statement (.pinBWgm5Com1 c0) := ⟨rfl, fun h => absurd h Bool.false_ne_true⟩
theorem pinBWgm5Com2 (c0 : Byte) : Statement (.pinBWgm5Com2 c0) := ⟨rfl, fun h => absurd h Bool.false_ne_true⟩
theorem pinBWgm5Com3 (c0 : Byte) : Statement (.pinBWgm5Com3 c0) := ⟨rfl, fun h => absurd h Bool.false_ne_true⟩
theorem pinAWgm6Com0 : Statement .pinAWgm6Com0 := ⟨rfl, fun h => absurd h Bool.false_ne_true⟩
theorem pinAWgm6Com1 : Statement .pinAWgm6Com1 := ⟨rfl, fun h => absurd h Bool.false_ne_true⟩
theorem pinAWgm6Com2 : Statement .pinAWgm6Com2 := ⟨rfl, fun h => absurd h Bool.false_ne_true⟩
theorem pinAWgm6Com3 : Statement .pinAWgm6Com3 := ⟨rfl, fun h => absurd h Bool.false_ne_true⟩
theorem pinBWgm6Com0 : Statement .pinBWgm6Com0 := ⟨rfl, fun h => absurd h Bool.false_ne_true⟩
theorem pinBWgm6Com1 : Statement .pinBWgm6Com1 := ⟨rfl, fun h => absurd h Bool.false_ne_true⟩
theorem pinBWgm6Com2 : Statement .pinBWgm6Com2 := ⟨rfl, fun h => absurd h Bool.false_ne_true⟩
theorem pinBWgm6Com3 : Statement .pinBWgm6Com3 := ⟨rfl, fun h => absurd h Bool.false_ne_true⟩
theorem pinAWgm7Com0 (c0 : Byte) : Statement (.pinAWgm7Com0 c0) := ⟨rfl, fun h => absurd h Bool.false_ne_true⟩
theorem pinAWgm7Com1 (c0 : Byte) : Statement (.pinAWgm7Com1 c0) := ⟨rfl, fun h => absurd h Bool.false_ne_true⟩
theorem pinAWgm7Com2 (c0 : Byte) : Statement (.pinAWgm7Com2 c0) := ⟨rfl, fun h => absurd h Bool.false_ne_true⟩
theorem pinAWgm7Com3 (c0 : Byte) : Statement (.pinAWgm7Com3 c0) := ⟨rfl, fun h => absurd h Bool.false_ne_true⟩
theorem pinBWgm7Com0 (c0 : Byte) : Statement (.pinBWgm7Com0 c0) := ⟨rfl, fun h => absurd h Bool.false_ne_true⟩
theorem pinBWgm7Com1 (c0 : Byte) : Statement (.pinBWgm7Com1 c0) := ⟨rfl, fun h => absurd h Bool.false_ne_true⟩
theorem pinBWgm7Com2 (c0 : Byte) : Statement (.pinBWgm7Com2 c0) := ⟨rfl, fun h => absurd h Bool.false_ne_true⟩
theorem pinBWgm7Com3 (c0 : Byte) : Statement (.pinBWgm7Com3 c0) := ⟨rfl, fun h => absurd h Bool.false_ne_true⟩
theorem dispatchOvf : Statement .dispatchOvf := ⟨rfl, fun h => absurd h Bool.false_ne_true⟩
theorem dispatchCompa : Statement .dispatchCompa := ⟨rfl, fun h => absurd h Bool.false_ne_true⟩
theorem dispatchCompb : Statement .dispatchCompb := ⟨rfl, fun h => absurd h Bool.false_ne_true⟩
theorem dispatchNone : Statement .dispatchNone := ⟨rfl, fun h => absurd h Bool.false_ne_true⟩

end Sys2Proof.Laws.Codec
end

