-- ==== Sys2Proof/Laws/Tick.lean ====
section
/-! SUPPORT. A tick in terms of its handler, the turn of phase-correct PWM, the pin rows that a control
word selects, the clock select read off `controlB`, a COM field of 0. -/

namespace Sys2Proof.Machine

variable (s : State)

/-! ### Selected rows -/

theorem decodeWgm_eq_iff (m : Mode) :
    decodeWgm (s.controlB ++ s.controlA) = tickOf m ↔ s.mode = m :=
  ⟨mode_of_decodeWgm, fun h => by subst h; rfl⟩

/-- A tick row is the tick of some mode. -/
theorem mem_tickRows {i : Instr} (h : i ∈ tickRows) : ∃ m, i = tickOf m := by
  simp only [tickRows, List.mem_cons, List.not_mem_nil, or_false] at h
  rcases h with rfl | rfl | rfl | rfl | rfl | rfl | rfl | rfl
  · exact ⟨.normal, rfl⟩
  · exact ⟨.pcpwmFf, rfl⟩
  · exact ⟨.ctc, rfl⟩
  · exact ⟨.fastpwmFf, rfl⟩
  · exact ⟨.reserved4, rfl⟩
  · exact ⟨.pcpwmOcra, rfl⟩
  · exact ⟨.reserved6, rfl⟩
  · exact ⟨.fastpwmOcra, rfl⟩

variable {s} {q : State}

/-- The row of a non-PWM mode that `s` selects, run in a state with the same control registers. -/
theorem exec_decodePin_nonPwm (X : Pin) (c0 : Byte) (h : isPwm s.mode = false)
    (hA : q.controlA = s.controlA) (hB : q.controlB = s.controlB) :
    exec (decodePin X (s.controlB ++ s.controlA) c0) q = .next (nonPwmAction X (q.com X) q) := by
  have hc : q.com X = s.com X := by simp [State.com, State.ctrl16, hA, hB]
  rw [hc]
  exact exec_pinLogicOf_nonPwm X s.mode (s.com X) c0 q h

theorem exec_decodePin_fast (X : Pin) (c0 : Byte) (h : s.mode = .fastpwmFf ∨ s.mode = .fastpwmOcra)
    (hA : q.controlA = s.controlA) (hB : q.controlB = s.controlB) :
    exec (decodePin X (s.controlB ++ s.controlA) c0) q = .next (fastPin X c0 q) := by
  have hc : q.com X = s.com X := by simp [State.com, State.ctrl16, hA, hB]
  have hm : q.mode = s.mode := by simp [State.mode, State.ctrl16, hA, hB]
  have ht : q.togen = decide (s.mode = .fastpwmOcra) := by
    rw [togen_eq, hm]; rcases h with h | h <;> rw [h] <;> rfl
  rw [fastPin, hc, ht]
  exact exec_pinLogicOf_fast X s.mode (s.com X) c0 q h

theorem exec_decodePin_phase (X : Pin) (c0 : Byte) (h : s.mode = .pcpwmFf ∨ s.mode = .pcpwmOcra)
    (hA : q.controlA = s.controlA) (hB : q.controlB = s.controlB) :
    exec (decodePin X (s.controlB ++ s.controlA) c0) q = .next (phasePin X c0 q) := by
  have hc : q.com X = s.com X := by simp [State.com, State.ctrl16, hA, hB]
  have hm : q.mode = s.mode := by simp [State.mode, State.ctrl16, hA, hB]
  have ht : q.togen = decide (s.mode = .pcpwmOcra) := by
    rw [togen_eq, hm]; rcases h with h | h <;> rw [h] <;> rfl
  rw [phasePin, hc, ht]
  exact exec_pinLogicOf_phase X s.mode (s.com X) c0 q h

/-- The clock select is the low three bits of `controlB` (30_encoding.md R76). -/
theorem clock_of_controlB (v : BitVec 3) (h : s.controlB &&& 0x07 = v.setWidth 8) :
    s.clock = clockOfBits v := by
  have hb : ∀ b : Byte, b.extractLsb' 0 3 = (b &&& 0x07).setWidth 3 := by decide
  unfold State.clock State.ctrl16
  rw [csField_append, hb, h, BitVec.setWidth_setWidth_of_le v (by omega), BitVec.setWidth_eq]

theorem com_a_eq_com0 (h : s.controlA &&& 0xC0 = 0) : s.com .a = .com0 := by
  have hb : ∀ a : Byte, a &&& 0xC0 = 0 → comOfBits (a.extractLsb' 6 2) = .com0 := by decide
  unfold State.com State.ctrl16
  rw [comField_a_append]
  exact hb _ h

theorem com_b_eq_com0 (h : s.controlA &&& 0x30 = 0) : s.com .b = .com0 := by
  have hb : ∀ a : Byte, a &&& 0x30 = 0 → comOfBits (a.extractLsb' 4 2) = .com0 := by decide
  unfold State.com State.ctrl16
  rw [comField_b_append]
  exact hb _ h

/-! ### What a step that touches one pin leaves alone -/

theorem OnlyPin.levelB_of_a {t : State} (h : OnlyPin .a s t) :
    t.outputPinStateB = s.outputPinStateB := by
  obtain ⟨l, c, rfl, _⟩ := h; rfl

theorem OnlyPin.levelA_of_b {t : State} (h : OnlyPin .b s t) :
    t.outputPinStateA = s.outputPinStateA := by
  obtain ⟨l, c, rfl, _⟩ := h; rfl

/-- Setting level and events back gives the old state. -/
theorem OnlyPin.frame {X : Pin} {t : State} (h : OnlyPin X s t) :
    writeLevel X (s.pinLevel X) { t with events := s.events } = s := by
  obtain ⟨l, c, rfl, _⟩ := h
  cases X <;> rfl

theorem OnlyPin.irq_mem {X : Pin} {t : State} (h : OnlyPin X s t) (v : Source)
    (hv : Event.irqRequest v ∈ t.events) : Event.irqRequest v ∈ s.events := by
  obtain ⟨l, c, rfl, hc⟩ := h
  rw [writeLevel_events] at hv
  rcases List.mem_append.mp hv with h | h
  · exact h
  · obtain ⟨l', h'⟩ := hc _ h
    cases h'

variable (s)

/-- FOC touches pin A, then pin B. -/
theorem forceCompare_onlyPin (a b : Bool) :
    ∃ u, OnlyPin .a s u ∧ OnlyPin .b u (forceCompare a b s) := by
  unfold forceCompare
  split
  · exact ⟨s, .rfl s .a, .rfl s .b⟩
  · exact ⟨_, onlyPin_forcePin s .a a, onlyPin_forcePin _ .b b⟩

/-- Every case of ADVANCE is some number of ticks with a new remainder and result. -/
theorem advanceBy_eq_carry (c : ClockSelect) (n : Nat) :
    ∃ k e r, advanceBy c n s = carry e r (ticks k s) := by
  cases c
  · exact ⟨0, 0, .ok, rfl⟩
  · exact ⟨_, _, _, advanceRunning_eq s 1 n⟩
  · exact ⟨_, _, _, advanceRunning_eq s 8 n⟩
  · exact ⟨_, _, _, advanceRunning_eq s 64 n⟩
  · exact ⟨_, _, _, advanceRunning_eq s 256 n⟩
  · exact ⟨_, _, _, advanceRunning_eq s 1024 n⟩
  · exact ⟨0, s.excessTicks, .configError 6, rfl⟩
  · exact ⟨0, s.excessTicks, .configError 7, rfl⟩

/-! ### A tick by its handler -/

theorem tickAs_count (m : Mode) : (tickAs m s).count =
    if (handleMode m s.count (detected s)).countingDownwards
    then (handleMode m s.count (detected s)).count - 1
    else (handleMode m s.count (detected s)).count + 1 := by
  rw [tickAs, detect_eq_detected]; simp

theorem tickAs_countingDownwards (m : Mode) :
    (tickAs m s).countingDownwards = (handleMode m s.count (detected s)).countingDownwards := by
  rw [tickAs, detect_eq_detected]; simp

theorem tickAs_compareA (m : Mode) :
    (tickAs m s).compareA = (handleMode m s.count (detected s)).compareA := by
  rw [tickAs, detect_eq_detected]; simp

theorem tickAs_compareB (m : Mode) :
    (tickAs m s).compareB = (handleMode m s.count (detected s)).compareB := by
  rw [tickAs, detect_eq_detected]; simp

theorem tickAs_outputPinStateA (m : Mode) :
    (tickAs m s).outputPinStateA = (handleMode m s.count (detected s)).outputPinStateA := by
  rw [tickAs, detect_eq_detected]; simp

theorem tickAs_outputPinStateB (m : Mode) :
    (tickAs m s).outputPinStateB = (handleMode m s.count (detected s)).outputPinStateB := by
  rw [tickAs, detect_eq_detected]; simp

theorem tickAs_interruptFlags (m : Mode) : (tickAs m s).interruptFlags =
    dispatchedFlags (answerOf s).intEnabled (handleMode m s.count (detected s)).interruptFlags
      s.interruptMask := by
  rw [tickAs, detect_eq_detected, dispatch_interruptFlags]
  simp [answerOf]

theorem turn_countingDownwards (top c0 : Byte) : (turn top c0 s).countingDownwards =
    if s.countingDownwards then !decide (c0 = 0) else decide (c0 = top) := by
  unfold turn
  split_ifs <;> simp_all

theorem turn_interruptFlags (top c0 : Byte) : (turn top c0 s).interruptFlags =
    if s.countingDownwards = true ∧ c0 = 0 then s.interruptFlags ||| 1 else s.interruptFlags := by
  unfold turn
  split_ifs <;> simp_all [flagBit]

section
variable (p : Prop) [Decidable p]

/-- Synchronisation on a condition touches the active compare registers only. -/
theorem syncIf_eq : (if p then syncBuffers s else s) =
    { s with
      compareA := if p then s.compareBufferA else s.compareA
      compareB := if p then s.compareBufferB else s.compareB } := by
  split <;> rfl

end

end Sys2Proof.Machine
end

