-- ==== Sys2Proof/Tests/Slice0.lean ====
section
/-! SUPPORT. Tests of the model: ill-formed terms that the checks refuse, words written out bit by bit from
the spec's encodings, single steps with the results the spec's examples and vectors give, and for
each obligation with hypotheses a witness that meets them. -/

namespace Sys2Proof.Tests.Slice0

open Sys2Proof Sys2Proof.Machine

/-- The next state of an outcome, if it is one. -/
def nextOf (o : Host.Outcome State Fault Refusal) : Option State :=
  match o with
  | .next t => some t
  | .fault _ => none
  | .refused _ => none

/-- The refusal of an outcome, if it is one. -/
def refusalOf (o : Host.Outcome State Fault Refusal) : Option Refusal :=
  match o with
  | .next _ => none
  | .fault _ => none
  | .refused r => some r

/-- A state from the fields the vectors of 95_test_vectors.md name first. -/
def st (cA cB cnt oc b : Byte) : State :=
  { State.reset with
    controlA := cA, controlB := cB, count := cnt, compareA := oc, compareB := oc,
    compareBufferA := b, compareBufferB := b }

/-- Flags, mask and enabled host answers with a handler for every vector. -/
def irq (s : State) (flags mask : Byte) : State :=
  { s with interruptFlags := flags, interruptMask := mask, answers := [⟨true, true⟩, ⟨true, true⟩] }

/-! ### Ill-formed terms -/

theorem test_internal_operation_is_no_command :
    Instr.isCommand .tickNormal = false ∧ Instr.toCommand (.clkDiv8 3) = none ∧
    Instr.toCommand .pinAWgm0Com1 = none ∧ Instr.toCommand .dispatchNone = none := by decide

theorem test_command_words_outside_the_patterns :
    HostCommand.wf ⟨0x0700, 0, 0⟩ = false ∧ HostCommand.wf ⟨0x1700, 0, 0⟩ = false ∧
    HostCommand.wf ⟨0x0800, 0, 0⟩ = false ∧ HostCommand.wf ⟨0x2001, 5, 0⟩ = false ∧
    HostCommand.wf ⟨0x2100, 5, 0⟩ = false ∧ HostCommand.wf ⟨0x3400, 0, 0⟩ = false ∧
    HostCommand.wf ⟨0x3001, 0, 0⟩ = false ∧ HostCommand.wf ⟨0x4200, 0, 0⟩ = false ∧
    HostCommand.wf ⟨0x5001, 0, 0⟩ = false ∧ HostCommand.wf ⟨0x6000, 0, 0⟩ = false ∧
    HostCommand.wf ⟨0xF000, 0, 0⟩ = false := by decide

theorem test_command_words_inside_the_patterns :
    HostCommand.wf ⟨0x06FF, 0, 0⟩ = true ∧ HostCommand.wf ⟨0x16FF, 0, 0⟩ = true ∧
    HostCommand.wf ⟨0x2000, 9, 0⟩ = true ∧ HostCommand.wf ⟨0x3300, 0, 0⟩ = true ∧
    HostCommand.wf ⟨0x4100, 0, 2⟩ = true ∧ HostCommand.wf ⟨0x5000, 0, 0⟩ = true := by decide

theorem test_pseudo_operand_ranges :
    (Pseudo.setMode 8 0 0 0).wf = false ∧ (Pseudo.setMode 0 4 0 0).wf = false ∧
    (Pseudo.setMode 0 0 4 0).wf = false ∧ (Pseudo.setMode 0 0 0 8).wf = false ∧
    (Pseudo.clrf 256).wf = false ∧ (Pseudo.setMode 7 3 3 7).wf = true ∧
    (Pseudo.clrf 255).wf = true := by decide

/-- An attachment with seven different addresses and three different names. -/
def attachment : Attachment :=
  ⟨0, 0x44, 0x45, 0x46, 0x47, 0x48, 0x6E, 0x35, "ovf", "compa", "compb"⟩

theorem test_attachment_must_be_injective :
    attachment.wf = true ∧
    Attachment.wf { attachment with flagsAddr := 0x44 } = false ∧
    Attachment.wf { attachment with compbName := "ovf" } = false := by decide

/-! ### Words written out from the encodings -/

/-- 30_encoding.md R88, the seven reads; the data byte is ignored. -/
theorem test_decode_reads :
    decodeTableWord 16 0b0000_0000_00000000 = some .rdCtrla ∧
    decodeTableWord 16 0b0000_0001_00000000 = some .rdCtrlb ∧
    decodeTableWord 16 0b0000_0010_00000000 = some .rdCount ∧
    decodeTableWord 16 0b0000_0011_10101010 = some .rdCmpa ∧
    decodeTableWord 16 0b0000_0100_00000000 = some .rdCmpb ∧
    decodeTableWord 16 0b0000_0101_11111111 = some .rdMask ∧
    decodeTableWord 16 0b0000_0110_00000000 = some .rdFlags := by decide

/-- 30_encoding.md R88, the seven writes. -/
theorem test_decode_writes :
    decodeTableWord 16 0b0001_0000_10000011 = some (.wrCtrla 0x83) ∧
    decodeTableWord 16 0b0001_0001_00001010 = some (.wrCtrlb 0x0A) ∧
    decodeTableWord 16 0b0001_0010_11111111 = some (.wrCount 0xFF) ∧
    decodeTableWord 16 0b0001_0011_00010000 = some (.wrCmpa 0x10) ∧
    decodeTableWord 16 0b0001_0100_00100000 = some (.wrCmpb 0x20) ∧
    decodeTableWord 16 0b0001_0101_00000001 = some (.wrMask 0x01) ∧
    decodeTableWord 16 0b0001_0110_00000010 = some (.wrFlags 0x02) := by decide

/-- 30_encoding.md R86, R88, the other commands; `n` and the sink stand beside the word (R87). -/
theorem test_decode_other_commands :
    decodeHcw 0b0010_0000_00000000 1000 0 = some (.advance 1000) ∧
    decodeHcw 0b0011_0000_00000000 0 0 = some (.foc false false) ∧
    decodeHcw 0b0011_0001_00000000 0 0 = some (.foc true false) ∧
    decodeHcw 0b0011_0010_00000000 0 0 = some (.foc false true) ∧
    decodeHcw 0b0011_0011_00000000 0 0 = some (.foc true true) ∧
    decodeHcw 0b0100_0000_00000000 0 7 = some (.attachSink .a 7) ∧
    decodeHcw 0b0100_0001_00000000 0 7 = some (.attachSink .b 7) ∧
    decodeHcw 0b0101_0000_00000000 0 0 = some .reset := by decide

theorem test_decode_table_word_refuses :
    decodeTableWord 16 0x0700 = none ∧ decodeTableWord 16 0x6000 = none ∧
    decodeTableWord 16 0x5001 = none ∧ decodeTableWord 8 0x00 = none ∧
    decodeTableWord 16 0x10000 = none := by decide

/-- 30_encoding.md R75: WGM is bits 11 and 1:0 of the control word. -/
theorem test_decode_ticks :
    decodeWgm 0b0000_0000_0000_0000 = .tickNormal ∧
    decodeWgm 0b0000_0000_0000_0001 = .tickPcpwmFf ∧
    decodeWgm 0b0000_0000_0000_0010 = .tickCtc ∧
    decodeWgm 0b0000_0000_0000_0011 = .tickFastpwmFf ∧
    decodeWgm 0b0000_1000_0000_0000 = .tickReserved4 ∧
    decodeWgm 0b0000_1000_0000_0001 = .tickPcpwmOcra ∧
    decodeWgm 0b0000_1000_0000_0010 = .tickReserved6 ∧
    decodeWgm 0b0000_1000_0000_0011 = .tickFastpwmOcra := by decide

/-- 30_encoding.md R76: CS is bits 10:8 of the control word. -/
theorem test_decode_clocks :
    decodeCs 0b0000_0000_0000_0000 5 = .clkStop 5 ∧
    decodeCs 0b0000_0001_0000_0000 5 = .clkDiv1 5 ∧
    decodeCs 0b0000_0010_0000_0000 5 = .clkDiv8 5 ∧
    decodeCs 0b0000_0011_0000_0000 5 = .clkDiv64 5 ∧
    decodeCs 0b0000_0100_0000_0000 5 = .clkDiv256 5 ∧
    decodeCs 0b0000_0101_0000_0000 5 = .clkDiv1024 5 ∧
    decodeCs 0b0000_0110_0000_0000 5 = .clkExt6 5 ∧
    decodeCs 0b0000_0111_0000_0000 5 = .clkExt7 5 := by decide

/-- 30_encoding.md R77, R81: pin A under WGM 0. -/
theorem test_decode_pin_a_wgm0 :
    decodePin .a 0b0000_0000_0000_0000 0x21 = .pinAWgm0Com0 ∧
    decodePin .a 0b0000_0000_0100_0000 0x21 = .pinAWgm0Com1 ∧
    decodePin .a 0b0000_0000_1000_0000 0x21 = .pinAWgm0Com2 ∧
    decodePin .a 0b0000_0000_1100_0000 0x21 = .pinAWgm0Com3 := by decide

/-- 30_encoding.md R79, R81: pin A under WGM 1. -/
theorem test_decode_pin_a_wgm1 :
    decodePin .a 0b0000_0000_0000_0001 0x21 = .pinAWgm1Com0 0x21 ∧
    decodePin .a 0b0000_0000_0100_0001 0x21 = .pinAWgm1Com1 0x21 ∧
    decodePin .a 0b0000_0000_1000_0001 0x21 = .pinAWgm1Com2 0x21 ∧
    decodePin .a 0b0000_0000_1100_0001 0x21 = .pinAWgm1Com3 0x21 := by decide

/-- 30_encoding.md R77, R81: pin A under WGM 2. -/
theorem test_decode_pin_a_wgm2 :
    decodePin .a 0b0000_0000_0000_0010 0x21 = .pinAWgm2Com0 ∧
    decodePin .a 0b0000_0000_0100_0010 0x21 = .pinAWgm2Com1 ∧
    decodePin .a 0b0000_0000_1000_0010 0x21 = .pinAWgm2Com2 ∧
    decodePin .a 0b0000_0000_1100_0010 0x21 = .pinAWgm2Com3 := by decide

/-- 30_encoding.md R78, R81: pin A under WGM 3. -/
theorem test_decode_pin_a_wgm3 :
    decodePin .a 0b0000_0000_0000_0011 0x21 = .pinAWgm3Com0 0x21 ∧
    decodePin .a 0b0000_0000_0100_0011 0x21 = .pinAWgm3Com1 0x21 ∧
    decodePin .a 0b0000_0000_1000_0011 0x21 = .pinAWgm3Com2 0x21 ∧
    decodePin .a 0b0000_0000_1100_0011 0x21 = .pinAWgm3Com3 0x21 := by decide

/-- 30_encoding.md R77, R81: pin A under WGM 4. -/
theorem test_decode_pin_a_wgm4 :
    decodePin .a 0b0000_1000_0000_0000 0x21 = .pinAWgm4Com0 ∧
    decodePin .a 0b0000_1000_0100_0000 0x21 = .pinAWgm4Com1 ∧
    decodePin .a 0b0000_1000_1000_0000 0x21 = .pinAWgm4Com2 ∧
    decodePin .a 0b0000_1000_1100_0000 0x21 = .pinAWgm4Com3 := by decide

/-- 30_encoding.md R79, R81: pin A under WGM 5. -/
theorem test_decode_pin_a_wgm5 :
    decodePin .a 0b0000_1000_0000_0001 0x21 = .pinAWgm5Com0 0x21 ∧
    decodePin .a 0b0000_1000_0100_0001 0x21 = .pinAWgm5Com1 0x21 ∧
    decodePin .a 0b0000_1000_1000_0001 0x21 = .pinAWgm5Com2 0x21 ∧
    decodePin .a 0b0000_1000_1100_0001 0x21 = .pinAWgm5Com3 0x21 := by decide

/-- 30_encoding.md R77, R81: pin A under WGM 6. -/
theorem test_decode_pin_a_wgm6 :
    decodePin .a 0b0000_1000_0000_0010 0x21 = .pinAWgm6Com0 ∧
    decodePin .a 0b0000_1000_0100_0010 0x21 = .pinAWgm6Com1 ∧
    decodePin .a 0b0000_1000_1000_0010 0x21 = .pinAWgm6Com2 ∧
    decodePin .a 0b0000_1000_1100_0010 0x21 = .pinAWgm6Com3 := by decide

/-- 30_encoding.md R78, R81: pin A under WGM 7. -/
theorem test_decode_pin_a_wgm7 :
    decodePin .a 0b0000_1000_0000_0011 0x21 = .pinAWgm7Com0 0x21 ∧
    decodePin .a 0b0000_1000_0100_0011 0x21 = .pinAWgm7Com1 0x21 ∧
    decodePin .a 0b0000_1000_1000_0011 0x21 = .pinAWgm7Com2 0x21 ∧
    decodePin .a 0b0000_1000_1100_0011 0x21 = .pinAWgm7Com3 0x21 := by decide

/-- 30_encoding.md R77, R81: pin B under WGM 0. -/
theorem test_decode_pin_b_wgm0 :
    decodePin .b 0b0000_0000_0000_0000 0x21 = .pinBWgm0Com0 ∧
    decodePin .b 0b0000_0000_0001_0000 0x21 = .pinBWgm0Com1 ∧
    decodePin .b 0b0000_0000_0010_0000 0x21 = .pinBWgm0Com2 ∧
    decodePin .b 0b0000_0000_0011_0000 0x21 = .pinBWgm0Com3 := by decide

/-- 30_encoding.md R79, R81: pin B under WGM 1. -/
theorem test_decode_pin_b_wgm1 :
    decodePin .b 0b0000_0000_0000_0001 0x21 = .pinBWgm1Com0 0x21 ∧
    decodePin .b 0b0000_0000_0001_0001 0x21 = .pinBWgm1Com1 0x21 ∧
    decodePin .b 0b0000_0000_0010_0001 0x21 = .pinBWgm1Com2 0x21 ∧
    decodePin .b 0b0000_0000_0011_0001 0x21 = .pinBWgm1Com3 0x21 := by decide

/-- 30_encoding.md R77, R81: pin B under WGM 2. -/
theorem test_decode_pin_b_wgm2 :
    decodePin .b 0b0000_0000_0000_0010 0x21 = .pinBWgm2Com0 ∧
    decodePin .b 0b0000_0000_0001_0010 0x21 = .pinBWgm2Com1 ∧
    decodePin .b 0b0000_0000_0010_0010 0x21 = .pinBWgm2Com2 ∧
    decodePin .b 0b0000_0000_0011_0010 0x21 = .pinBWgm2Com3 := by decide

/-- 30_encoding.md R78, R81: pin B under WGM 3. -/
theorem test_decode_pin_b_wgm3 :
    decodePin .b 0b0000_0000_0000_0011 0x21 = .pinBWgm3Com0 0x21 ∧
    decodePin .b 0b0000_0000_0001_0011 0x21 = .pinBWgm3Com1 0x21 ∧
    decodePin .b 0b0000_0000_0010_0011 0x21 = .pinBWgm3Com2 0x21 ∧
    decodePin .b 0b0000_0000_0011_0011 0x21 = .pinBWgm3Com3 0x21 := by decide

/-- 30_encoding.md R77, R81: pin B under WGM 4. -/
theorem test_decode_pin_b_wgm4 :
    decodePin .b 0b0000_1000_0000_0000 0x21 = .pinBWgm4Com0 ∧
    decodePin .b 0b0000_1000_0001_0000 0x21 = .pinBWgm4Com1 ∧
    decodePin .b 0b0000_1000_0010_0000 0x21 = .pinBWgm4Com2 ∧
    decodePin .b 0b0000_1000_0011_0000 0x21 = .pinBWgm4Com3 := by decide

/-- 30_encoding.md R79, R81: pin B under WGM 5. -/
theorem test_decode_pin_b_wgm5 :
    decodePin .b 0b0000_1000_0000_0001 0x21 = .pinBWgm5Com0 0x21 ∧
    decodePin .b 0b0000_1000_0001_0001 0x21 = .pinBWgm5Com1 0x21 ∧
    decodePin .b 0b0000_1000_0010_0001 0x21 = .pinBWgm5Com2 0x21 ∧
    decodePin .b 0b0000_1000_0011_0001 0x21 = .pinBWgm5Com3 0x21 := by decide

/-- 30_encoding.md R77, R81: pin B under WGM 6. -/
theorem test_decode_pin_b_wgm6 :
    decodePin .b 0b0000_1000_0000_0010 0x21 = .pinBWgm6Com0 ∧
    decodePin .b 0b0000_1000_0001_0010 0x21 = .pinBWgm6Com1 ∧
    decodePin .b 0b0000_1000_0010_0010 0x21 = .pinBWgm6Com2 ∧
    decodePin .b 0b0000_1000_0011_0010 0x21 = .pinBWgm6Com3 := by decide

/-- 30_encoding.md R78, R81: pin B under WGM 7. -/
theorem test_decode_pin_b_wgm7 :
    decodePin .b 0b0000_1000_0000_0011 0x21 = .pinBWgm7Com0 0x21 ∧
    decodePin .b 0b0000_1000_0001_0011 0x21 = .pinBWgm7Com1 0x21 ∧
    decodePin .b 0b0000_1000_0010_0011 0x21 = .pinBWgm7Com2 0x21 ∧
    decodePin .b 0b0000_1000_0011_0011 0x21 = .pinBWgm7Com3 0x21 := by decide

/-- 30_encoding.md R82: lowest bit first. -/
theorem test_decode_dispatch :
    decodeIrq3 0b000 = .dispatchNone ∧ decodeIrq3 0b001 = .dispatchOvf ∧
    decodeIrq3 0b010 = .dispatchCompa ∧ decodeIrq3 0b011 = .dispatchOvf ∧
    decodeIrq3 0b100 = .dispatchCompb ∧ decodeIrq3 0b101 = .dispatchOvf ∧
    decodeIrq3 0b110 = .dispatchCompa ∧ decodeIrq3 0b111 = .dispatchOvf := by decide

/-- 30_encoding.md R90: the expansion of SETMODE, as two writes. -/
theorem test_setmode_expands :
    (Pseudo.setMode 7 2 0 1).expand = [.wrCtrla 0x83, .wrCtrlb 0x09] ∧
    (Pseudo.clrf 3).expand = [.wrFlags 0x03] := by decide

/-! ### Ports -/

/-- 40_register_ports.md R101, R103: all eight bits read back, the unused ones included. -/
theorem test_control_ports_read_back :
    (nextOf (exec .rdCtrla (st 0x8F 0xC9 0 0 0))).map State.result = some (.data 0x8F) ∧
    (nextOf (exec .rdCtrlb (st 0x8F 0xC9 0 0 0))).map State.result = some (.data 0xC9) := by decide

/-- 40_register_ports.md R107 example: the read answers the staged value. -/
theorem test_rd_cmpa_answers_the_buffer :
    (nextOf (exec .rdCmpa (st 0x03 0 0x40 0x80 0x10))).map State.result = some (.data 0x10) ∧
    (nextOf (exec (.wrCmpa 0x10) (st 0x03 0 0x40 0x80 0x80))).map State.compareA = some 0x80 := by
  decide

/-- 40_register_ports.md R114 example: `0x07`, `WR FLAGS, 0x02` gives `0x05`. -/
theorem test_wr_flags_clears_ones :
    (nextOf (exec (.wrFlags 0x02) (irq State.reset 0x07 0))).map State.interruptFlags
      = some 0x05 := by decide

/-- 40_register_ports.md R106: the inhibit flag under its parameter only. -/
theorem test_wr_count_inhibits_under_parameter :
    (nextOf (exec (.wrCount 9) State.reset)).map State.inhibitNextCompareMatch = some false ∧
    (nextOf (exec (.wrCount 9) { State.reset with params := ⟨true, false⟩ })).map
      State.inhibitNextCompareMatch = some true := by decide

/-- 20_memory.md R58: an access at a port's address, and one elsewhere. -/
theorem test_bus_access :
    nextOf (busWrite attachment 0x46 0x12 State.reset) = nextOf (exec (.wrCount 0x12) State.reset) ∧
    nextOf (busWrite attachment 0x50 0x12 State.reset) = some State.reset := by decide

/-! ### Pins -/

/-- 41_pin_driver.md R123, R124 and 42_waveform_tick.md R134 examples: toggle of a low pin with a sink. -/
theorem test_toggle_calls_the_sink :
    (nextOf (exec .pinAWgm0Com1 { State.reset with outputPinSinkA := some 3 })).map
      (fun t => (t.outputPinStateA, t.events)) = some (true, [.sinkCall .a true]) ∧
    (nextOf (exec .pinAWgm0Com2 { State.reset with outputPinSinkA := some 3 })).map State.events
      = some [] := by decide

/-- 42_waveform_tick.md R144 corner case (b): at BOTTOM with the compare value 0, high then low. -/
theorem test_fast_pwm_bottom_then_match :
    (nextOf (exec (.pinAWgm3Com2 0) { State.reset with outputPinSinkA := some 0 })).map
      (fun t => (t.outputPinStateA, t.events))
      = some (false, [.sinkCall .a true, .sinkCall .a false]) := by decide

/-- 42_waveform_tick.md R145 example: pin B, COM 2, upward clears and downward sets. -/
theorem test_phase_correct_pin_by_direction :
    (nextOf (exec (.pinBWgm1Com2 0x40)
      { st 0x21 0x01 0x40 0x40 0x40 with outputPinStateB := true })).map State.outputPinStateB
      = some false ∧
    (nextOf (exec (.pinBWgm1Com2 0x40)
      { st 0x21 0x01 0x40 0x40 0x40 with countingDownwards := true })).map State.outputPinStateB
      = some true := by decide

/-- 42_waveform_tick.md R149 example: FOC under WGM 0 and under WGM 3. -/
theorem test_foc_acts_in_non_pwm_modes_only :
    (nextOf (exec (.foc true false)
      { st 0x40 0 9 0 0 with outputPinSinkA := some 1, compareA := 5 })).map
      (fun t => (t.outputPinStateA, t.events, t.interruptFlags))
      = some (true, [.sinkCall .a true], 0x00) ∧
    (nextOf (exec (.foc true false) (st 0x43 0 9 0 0))).map State.outputPinStateA = some false := by
  decide

/-! ### Ticks -/

/-- 42_waveform_tick.md R135 example (95_test_vectors.md S-1 (a)): Normal mode at 0xFF. -/
theorem test_tick_normal_overflow :
    (nextOf (exec .tickNormal (st 0 1 0xFF 0 0))).map (fun t => (t.count, t.interruptFlags))
      = some (0x00, 0x01) := by decide

/-- 42_waveform_tick.md R136 example: CTC at compareA, COM-A 1. -/
theorem test_tick_ctc_wraps :
    (nextOf (exec .tickCtc { st 0x42 1 0x09 0x09 0x09 with compareB := 0, compareBufferB := 0 })).map
      (fun t => (t.count, t.interruptFlags, t.outputPinStateA)) = some (0x00, 0x02, true) := by decide

/-- 42_waveform_tick.md R137 example: a reserved selector overflows as Normal; WGM 6 does not clear. -/
theorem test_tick_reserved_as_normal :
    (nextOf (exec .tickReserved4 (st 0 9 0xFF 0 0))).map (fun t => (t.count, t.interruptFlags))
      = some (0x00, 0x01) ∧
    (nextOf (exec .tickReserved6 (st 2 9 0x09 0x09 0x09))).map State.count = some 0x0A := by decide

/-- 42_waveform_tick.md R139 and R140 examples. -/
theorem test_tick_fast_pwm_top :
    (nextOf (exec .tickFastpwmFf (st 3 1 0xFF 0 0))).map (fun t => (t.count, t.interruptFlags))
      = some (0x00, 0x01) ∧
    (nextOf (exec .tickFastpwmOcra
      { st 0x43 9 0x20 0x20 0x20 with compareB := 0, compareBufferB := 0 })).map
      (fun t => (t.count, t.interruptFlags, t.outputPinStateA)) = some (0x00, 0x03, true) := by decide

/-- 42_waveform_tick.md R141 examples: the turns at TOP and at BOTTOM. -/
theorem test_tick_phase_correct_turns :
    (nextOf (exec .tickPcpwmFf (st 1 1 0xFF 0x80 0x80))).map
      (fun t => (t.countingDownwards, t.count, t.interruptFlags)) = some (true, 0xFE, 0x00) ∧
    (nextOf (exec .tickPcpwmFf { st 1 1 0x00 0x80 0x80 with countingDownwards := true })).map
      (fun t => (t.countingDownwards, t.count, t.interruptFlags)) = some (false, 0x01, 0x01) := by
  decide

/-- 42_waveform_tick.md R143 example, and 95_test_vectors.md S-1 (b). -/
theorem test_tick_phase_correct_ocra :
    (nextOf (exec .tickPcpwmOcra
      { st 1 9 0x04 0x04 0x04 with compareB := 0, compareBufferB := 0 })).map
      (fun t => (t.countingDownwards, t.count, t.interruptFlags)) = some (true, 0x03, 0x02) ∧
    (nextOf (exec .tickPcpwmOcra (st 1 9 0 0 0))).map
      (fun t => (t.countingDownwards, t.count, t.interruptFlags)) = some (true, 0xFF, 0x06) := by
  decide

/-- 42_waveform_tick.md R131: detection is skipped once, the pin logic is not (corner case (d)). -/
theorem test_inhibit_skips_detection_once :
    (nextOf (exec .tickNormal { st 0x40 1 9 9 9 with inhibitNextCompareMatch := true })).map
      (fun t => (t.interruptFlags, t.inhibitNextCompareMatch, t.outputPinStateA))
      = some (0x00, false, true) := by decide

/-! ### The dispatcher -/

/-- 44_interrupt_dispatch.md R186 example (95_test_vectors.md S-4): one request a tick, overflow first. -/
theorem test_single_interrupt_per_tick :
    (nextOf (exec .tickNormal (irq (st 0 1 0x10 0x80 0x80) 0x07 0x07))).map
      (fun t => (t.interruptFlags, t.events)) = some (0x06, [.irqRequest .ovf]) := by decide

/-- 44_interrupt_dispatch.md R187: no handler, a diagnostic after the request. -/
theorem test_no_handler_is_a_diagnostic :
    (nextOf (exec .dispatchCompa { irq State.reset 0x06 0x06 with answers := [⟨true, false⟩] })).map
      (fun t => (t.interruptFlags, t.events))
      = some (0x04, [.irqRequest .compa, .diagNoVector .compa]) := by decide

/-- 44_interrupt_dispatch.md R185: a disabled host keeps every flag pending. -/
theorem test_disabled_host_requests_nothing :
    (nextOf (exec .dispatchCompb { irq State.reset 0x04 0x04 with answers := [⟨false, true⟩] })).map
      (fun t => (t.interruptFlags, t.events, t.asked)) = some (0x04, [], 1) ∧
    (nextOf (exec .dispatchNone (irq State.reset 0x04 0x00))).map State.interruptFlags
      = some 0x04 ∧
    (nextOf (exec .dispatchOvf (irq State.reset 0x05 0x07))).map State.events
      = some [.irqRequest .ovf] := by decide

/-! ### The prescaler -/

/-- 43_prescaler.md R172 example: 5 and 5 host ticks under divider 8. -/
theorem test_prescaler_carries :
    (nextOf (exec (.advance 5) (st 0 2 0 0 0))).map (fun t => (t.count, t.excessTicks))
      = some (0x00, 5) ∧
    (nextOf (exec (.advance 5)
      { irq (st 0 2 0 0 0) 0 0 with excessTicks := 5 })).map
      (fun t => (t.count, t.excessTicks, t.interruptFlags, t.result)) = some (0x01, 2, 0x06, .ok) := by
  decide

/-- 43_prescaler.md R173 example: a stopped clock discards the remainder. -/
theorem test_stopped_clock :
    (nextOf (exec (.advance 1000) { st 0 0 7 0 0 with excessTicks := 5 })).map
      (fun t => (t.count, t.excessTicks, t.result)) = some (0x07, 0, .ok) := by decide

/-- 43_prescaler.md R174 example: an external clock is a configuration error and changes nothing. -/
theorem test_external_clock :
    nextOf (exec (.advance 10) (st 0 6 7 0 0))
      = some { st 0 6 7 0 0 with result := .configError 6 } ∧
    nextOf (exec (.advance 0) (st 0 7 7 0 0))
      = some { st 0 7 7 0 0 with result := .configError 7 } := by decide

/-- 43_prescaler.md R176: the remainder carried over a change to a smaller divider. -/
theorem test_smaller_divider_bursts :
    (nextOf (exec (.advance 0) { st 0 1 0 0x80 0x80 with excessTicks := 3 })).map
      (fun t => (t.count, t.excessTicks)) = some (0x03, 0) ∧
    (nextOf (exec (.clkDiv64 60) { st 0 3 0 0x80 0x80 with excessTicks := 3 })).map State.excessTicks
      = some 63 ∧
    (nextOf (exec (.clkDiv256 256) (st 0 4 0 0x80 0x80))).map State.count = some 0x01 ∧
    (nextOf (exec (.clkDiv1024 1023) (st 0 5 0 0x80 0x80))).map State.excessTicks = some 1023 := by
  decide

/-! ### Reset and the step -/

/-- 70_reset_and_hazards.md R230, 10_state.md R35: RESET in a state that differs in many fields. -/
theorem test_reset_command :
    nextOf (exec .reset { st 0xFF 0xFF 0xFF 0xFF 0xFF with
      countingDownwards := true, outputPinStateA := true, outputPinSinkB := some 4,
      inhibitNextCompareMatch := true, excessTicks := 9 }) = some State.reset := by decide

/-- 30_encoding.md R83, R88: a word that is no command is refused by name. -/
theorem test_step_refuses_no_command :
    refusalOf (step (State.reset.withFetchWord 16 0x0700)) = some (.notACommand 0x0700) := by decide

/-- A placed command word runs as the first command after reset (log 1). -/
theorem test_step_runs_the_placed_word :
    nextOf (step (State.reset.withFetchWord 16 0x1003))
      = some { State.reset with controlA := 0x03 } ∧
    nextOf (step State.reset) = some State.reset := by decide

/-! ### Witnesses: each obligation's hypotheses are met by a concrete state and operands -/

theorem witness_WriteCountStoresAndInhibits :
    State.reset.params.inhibitOnCountWrite = false ∧
    State.params { State.reset with params := ⟨true, true⟩ } = ⟨true, true⟩ := by decide

theorem witness_BusAccessIsPortCommandOrNothing :
    attachment.wf = true ∧ 0x50 ∉ attachment.addrs ∧ 0x43 ∉ attachment.addrs := by decide

theorem witness_NormalTickRunsItsSteps :
    decodeWgm ((st 0xC0 0x01 9 9 9).controlB ++ (st 0xC0 0x01 9 9 9).controlA) = .tickNormal ∧
    decodeWgm ((st 0xC0 0x09 9 9 9).controlB ++ (st 0xC0 0x09 9 9 9).controlA) = .tickReserved4 ∧
    decodeWgm ((st 0xC2 0x09 9 9 9).controlB ++ (st 0xC2 0x09 9 9 9).controlA) = .tickReserved6 := by
  decide

theorem witness_CtcTickRunsItsSteps :
    decodeWgm ((st 0xC2 0x01 9 9 9).controlB ++ (st 0xC2 0x01 9 9 9).controlA) = .tickCtc := by decide

theorem witness_FastPwmTickRunsItsSteps :
    decodeWgm ((st 0x83 0x01 0 9 7).controlB ++ (st 0x83 0x01 0 9 7).controlA) = .tickFastpwmFf ∧
    decodeWgm ((st 0x83 0x09 9 9 7).controlB ++ (st 0x83 0x09 9 9 7).controlA)
      = .tickFastpwmOcra := by decide

theorem witness_PhaseCorrectTickRunsItsSteps :
    decodeWgm ((st 0x81 0x01 0xFF 9 7).controlB ++ (st 0x81 0x01 0xFF 9 7).controlA)
      = .tickPcpwmFf ∧
    decodeWgm ((st 0x81 0x09 9 9 7).controlB ++ (st 0x81 0x09 9 9 7).controlA) = .tickPcpwmOcra ∧
    true = (if (st 0x81 0x09 9 9 7).countingDownwards then
      !decide ((st 0x81 0x09 9 9 7).count = 0) else decide ((st 0x81 0x09 9 9 7).count = 9)) := by
  decide

theorem witness_SingleInterruptPerTick :
    (irq State.reset 0x07 0x07).interruptFlags &&& 0x07 = 0x07 ∧
    (irq State.reset 0x07 0xFF).interruptMask &&& 0x07 = 0x07 ∧
    (answerOf (irq State.reset 0x07 0xFF)).intEnabled = true ∧ Instr.tickCtc ∈ tickRows := by decide

theorem witness_OverflowSetAndGrantedInOneTick :
    (irq (st 0 1 0xFF 0 0) 0 1).count = 0xFF ∧
    (irq (st 0 1 0xFF 0 0) 0 1).interruptMask.getLsbD 0 = true ∧
    (answerOf (irq (st 0 1 0xFF 0 0) 0 1)).intEnabled = true := by decide

theorem witness_DispatchSelectorIsFixedPriority :
    (answerOf (irq State.reset 0x07 0x07)).intEnabled = true ∧
    (answerOf { State.reset with answers := [⟨false, true⟩] }).intEnabled = false := by decide

/-- A tick that overflows, before its step 4, and the same with the host disabled. -/
def overflowing (enabled : Bool) : State :=
  { irq (st 0 1 0xFF 0x80 0x80) 0x06 0x05 with answers := [⟨enabled, true⟩, ⟨true, true⟩] }

/-- That tick after step 3. -/
def afterStep3 (enabled : Bool) : State :=
  advanceCounter (handleMode .normal (overflowing enabled).count (detected (overflowing enabled)))

/-- The last clause, enabled: flags 7 and mask 5 select overflow before compare-B, and the tick grants it
(44_interrupt_dispatch.md R186; 70_reset_and_hazards.md R237). -/
theorem witness_DispatchSelectorIsFixedPriority_tick_enabled :
    (afterStep3 true).asked = (overflowing true).asked ∧
    (afterStep3 true).answers = (overflowing true).answers ∧
    decodeIrq3 (((afterStep3 true).interruptFlags &&& (afterStep3 true).interruptMask).extractLsb' 0 3)
      = .dispatchOvf ∧
    nextOf (exec .dispatchOvf (afterStep3 true)) = nextOf (exec .tickNormal (overflowing true)) ∧
    (nextOf (exec .tickNormal (overflowing true))).map
      (fun t => (t.count, t.interruptFlags, t.events, t.answers))
      = some (0x00, 0x06, [.irqRequest .ovf], [⟨true, true⟩]) := by decide

/-- The last clause, disabled: the same row is selected, and the tick leaves all three flags pending. -/
theorem witness_DispatchSelectorIsFixedPriority_tick_disabled :
    decodeIrq3 (((afterStep3 false).interruptFlags &&& (afterStep3 false).interruptMask).extractLsb' 0 3)
      = .dispatchOvf ∧
    nextOf (exec .dispatchOvf (afterStep3 false)) = nextOf (exec .tickNormal (overflowing false)) ∧
    (nextOf (exec .tickNormal (overflowing false))).map
      (fun t => (t.count, t.interruptFlags, t.events, t.answers))
      = some (0x00, 0x07, [], [⟨true, true⟩]) := by decide

theorem witness_StoppedClockDiscardsRemainder :
    (st 0 0xF8 0 0 0).controlB &&& 0x07 = 0x00 := by decide

/-- Both clauses, at the boundary: one host tick short of a divider and exactly one divider. -/
theorem witness_RunningClockConsumesDividerPerTick :
    (nextOf (exec (decodeWgm ((st 0 2 0 0 0).controlB ++ (st 0 2 0 0 0).controlA))
      (irq (st 0 2 0 0 0) 0 0))).isSome = true ∧
    (st 0 2 0 0 0).controlB &&& 0x07 = 0x02 ∧
    State.excessTicks { st 0 2 0 0 0 with excessTicks := 5 } + 2 < 8 ∧
    8 ≤ State.excessTicks { st 0 2 0 0 0 with excessTicks := 5 } + 3 := by decide

theorem witness_ExternalClockIsConfigError :
    (st 0 0x0E 0 0 0).controlB &&& 0x07 = 0x06 ∧ (st 0 0x0F 0 0 0).controlB &&& 0x07 = 0x07 := by
  decide

theorem witness_ForcedCompareActsInNonPwmModesOnly :
    (st 0x43 0 0 0 0).controlA.getLsbD 0 = true ∧ (st 0x42 0 0 0 0).controlA.getLsbD 0 = false := by
  decide

theorem witness_WordsOutsideThePatternsAreRefused :
    (State.reset.withFetchWord 16 0x6000).pending = [⟨0x6000, 0, 0⟩] ∧
    HostCommand.wf ⟨0x6000, 0, 0⟩ = false := by decide

theorem witness_CommandWordIsItsEncoding :
    decodeHcw 0x02AA 0 0 = some .rdCount ∧ (encode .rdCount).word = 0x0200 ∧
    decodeHcw 0x12AA 0 0 = some (.wrCount 0xAA) ∧ (encode (.wrCount 0xAA)).word = 0x12AA := by decide

theorem witness_SetModeSelectsItsFields : (Pseudo.setMode 7 3 3 7).wf = true := by decide

theorem witness_StepRunsThePendingCommand :
    (State.reset.withFetchWord 16 0x1003).pending = [⟨0x1003, 0, 0⟩] ∧
    decodeHcw 0x1003 0 0 = some (.wrCtrla 0x03) := by decide

theorem witness_StepWithoutCommandChangesNothing : State.reset.pending = [] := by decide

theorem witness_EveryStepKeepsTheInvariant :
    TimerInv (irq (st 0 1 0xFF 0 0) 0x07 0x07) ∧
    (nextOf (exec (.advance 3) (irq (st 0 1 0xFF 0x80 0x80) 0x07 0x00))).isSome = true ∧
    (nextOf (step (State.withFetchWord (irq (st 0 1 0xFF 0 0) 0x07 0x07) 16 0x1601))).isSome = true := by
  decide

theorem witness_ParametersNeverChange :
    exec .rdCount State.reset = .next { State.reset with result := .data 0x00 } ∧
    step State.reset = .next State.reset := ⟨rfl, rfl⟩

/-- One instruction for each clause. -/
theorem witness_HostRegistersChangeOnlyByTheirWrite :
    exec (.wrCtrla 1) State.reset = .next { State.reset with controlA := 1 } ∧
    exec (.wrCtrlb 1) State.reset = .next { State.reset with controlB := 1 } ∧
    exec (.wrMask 1) State.reset = .next { State.reset with interruptMask := 1 } ∧
    exec (.wrCmpa 1) State.reset = .next { State.reset with compareBufferA := 1 } ∧
    exec (.wrCmpb 1) State.reset = .next { State.reset with compareBufferB := 1 } ∧
    exec (.attachSink .a 1) State.reset = .next { State.reset with outputPinSinkA := some 1 } ∧
    exec (.attachSink .b 1) State.reset = .next { State.reset with outputPinSinkB := some 1 } :=
  ⟨rfl, rfl, rfl, rfl, rfl, rfl, rfl⟩

/-- A tick that takes the buffers, and a command that asks the host nothing. -/
theorem witness_ActiveCompareChangesOnlyBySynchronisation :
    (nextOf (exec (.advance 1) (irq (st 0 1 0 9 7) 0 0))).map State.compareA = some 7 ∧
    (nextOf (exec (.wrCmpa 3) (st 0 1 0 9 7))).map State.asked = some (st 0 1 0 9 7).asked := by decide

theorem witness_PinWithComZeroKeepsItsLevel :
    Instr.isCommand (.advance 2) = true ∧ (Instr.advance 2 ≠ .reset) ∧
    (nextOf (exec (.advance 2) (irq (st 0x0F 1 0 0 0) 0 0))).isSome = true ∧
    (st 0x3F 1 0 0 0).controlA &&& 0xC0 = 0 ∧ (st 0xCF 1 0 0 0).controlA &&& 0x30 = 0 := by decide

theorem witness_OnlyAdvanceEvaluatesInterrupts :
    Instr.isCommand (.wrMask 7) = true ∧
    exec (.wrMask 7) (irq State.reset 7 0)
      = .next { irq State.reset 7 0 with interruptMask := 7 } ∧
    ∀ n, Instr.wrMask 7 ≠ .advance n := ⟨rfl, rfl, fun _ h => Instr.noConfusion h⟩

theorem witness_SinksOnlyObserve :
    (nextOf (exec .tickCtc (irq (st 0x42 1 9 9 9) 0 0))).isSome = true := by decide

theorem witness_HandlerAnswersOnlyObserve :
    [HostAnswer.mk true false, ⟨true, true⟩].map HostAnswer.intEnabled
      = (irq State.reset 7 7).answers.map HostAnswer.intEnabled ∧
    (nextOf (exec .dispatchOvf (irq State.reset 7 7))).isSome = true := by decide

theorem witness_NormalCounterCountsHostTicks :
    decodeWgm ((st 0 0x01 5 0 0).controlB ++ (st 0 0x01 5 0 0).controlA)
      ∈ [Instr.tickNormal, .tickReserved4, .tickReserved6] ∧
    decodeWgm ((st 2 0x09 5 0 0).controlB ++ (st 2 0x09 5 0 0).controlA)
      ∈ [Instr.tickNormal, .tickReserved4, .tickReserved6] ∧
    (st 0 0x01 5 0 0).controlB &&& 0x07 = 0x01 ∧ (st 2 0x09 5 0 0).controlB &&& 0x07 = 0x01 ∧
    (st 0 0x01 5 0 0).excessTicks = 0 := by decide

/-- The three modes, TOP at 0 and at 0xFF among them. -/
theorem witness_ClearingModesHavePeriodTopPlusOne :
    decodeWgm ((st 3 1 0 9 9).controlB ++ (st 3 1 0 9 9).controlA) = .tickFastpwmFf ∧
    decodeWgm ((st 2 1 0 0 0).controlB ++ (st 2 1 0 0 0).controlA) = .tickCtc ∧
    (0 : Byte) = (st 2 1 0 0 0).compareA ∧ (0 : Byte) = (st 2 1 0 0 0).compareBufferA ∧
    decodeWgm ((st 3 9 0 0xFF 0xFF).controlB ++ (st 3 9 0 0xFF 0xFF).controlA)
      = .tickFastpwmOcra ∧
    (0xFF : Byte) = (st 3 9 0 0xFF 0xFF).compareA ∧
    (st 3 9 0 0xFF 0xFF).controlB &&& 0x07 = 0x01 ∧ (st 3 1 0 9 9).count = 0 := by decide

/-- TOP at its least value, 1, and the fixed TOP 0xFF. -/
theorem witness_PhaseCorrectHasPeriodTwiceTop :
    decodeWgm ((st 1 1 0 9 9).controlB ++ (st 1 1 0 9 9).controlA) = .tickPcpwmFf ∧
    decodeWgm ((st 1 9 0 1 1).controlB ++ (st 1 9 0 1 1).controlA) = .tickPcpwmOcra ∧
    (1 : Byte) = (st 1 9 0 1 1).compareA ∧ (1 : Byte) = (st 1 9 0 1 1).compareBufferA ∧
    1 ≤ (1 : Byte).toNat ∧ (st 1 9 0 1 1).controlB &&& 0x07 = 0x01 ∧
    (st 1 9 0 1 1).excessTicks = 0 ∧
    State.countingDownwards { st 1 9 0 1 1 with countingDownwards := true } = true := by decide

end Sys2Proof.Tests.Slice0
end

section
/-! PROOFS. The interrupt dispatcher: what its selected case does under either answer of the host, and that
a tick ends in the case it selects. -/

namespace Sys2Proof.Machine

/-- An enabled dispatcher case clears the flag of its source and requests its vector (44_interrupt_dispatch.md
R186). -/
theorem exec_dispatchOf_some_of_enabled {s : State} (h : (answerOf s).intEnabled = true) (v : Source) :
    ∃ t : State, exec (dispatchOf (some v)) s = .next t ∧
      t.interruptFlags = s.interruptFlags &&& ~~~flagBit v ∧
      t.events = s.events ++ requestEvents v (answerOf s).handled := by
  refine ⟨_, exec_dispatchOf (some v) s, ?_⟩
  rw [dispatchCase_some, if_pos h]
  exact ⟨rfl, rfl⟩

/-- A disabled dispatcher case only asks the host (44_interrupt_dispatch.md R186). -/
theorem exec_dispatchOf_some_of_disabled {s : State} (h : (answerOf s).intEnabled = false) (v : Source) :
    exec (dispatchOf (some v)) s = .next (askedOnce s) := by
  rw [exec_dispatchOf, dispatchCase_some, h, if_neg Bool.false_ne_true]

/-- Executing the dispatcher row that flags and mask select is step 4 of a tick (30_encoding.md R82,
42_waveform_tick.md R147). -/
theorem exec_decodeIrq3_irqBits (s : State) : exec (decodeIrq3 s.irqBits) s = .next (dispatch s) :=
  exec_dispatchOf (irqSelect s.irqBits) s

/-- A tick is detection, mode handler, counter and dispatch, with detection in its closed form (42_waveform_tick.md
R130). -/
theorem tickAs_eq_dispatch (m : Mode) (s : State) :
    tickAs m s = dispatch (advanceCounter (handleMode m s.count (detected s))) := by
  rw [tickAs, detect_eq_detected]

/-- Settles O28: the selector is a table of eight values, each source row is `dispatchCase` under one of the two
answers, and step 4 of a tick is the row selected in the state after step 3. -/
theorem dispatchSelectorIsFixedPriority : Obligations.DispatchSelectorIsFixedPriority := by
  refine ⟨by decide, by decide, by decide, by decide, fun s => ⟨exec_dispatchOf none s, ?enabled, ?disabled, ?tick⟩⟩
  case enabled =>
    intro h
    have granted := exec_dispatchOf_some_of_enabled h
    exact ⟨granted .ovf, granted .compa, granted .compb⟩
  case disabled =>
    intro h
    have refused := exec_dispatchOf_some_of_disabled h
    exact List.forall_mem_cons.2 ⟨refused .ovf,
      List.forall_mem_cons.2 ⟨refused .compa, List.forall_mem_singleton.2 (refused .compb)⟩⟩
  case tick =>
    intro m
    refine ⟨_, _, rfl, by simp, by simp, by simp, exec_decodeIrq3_irqBits _, ?_⟩
    rw [exec_tickOf, tickAs_eq_dispatch]

end Sys2Proof.Machine
end

section
/-! PROOFS. The register ports: the word of a port command decodes to it, its answer is the read or the write
of its port, and what a write does to the interrupt flags. -/

namespace Sys2Proof.Machine

variable {head : Byte} {p : Port}

/-- A head byte with op 0 and the index of a port reads that port, whatever the data byte (30_encoding.md
R88). -/
theorem readWord_decodes_and_answers (hop : head.extractLsb' 4 4 = (0 : BitVec 4))
    (harg : portOfIndex (head.extractLsb' 0 4) = some p) (x : Byte) (n k : Nat) (s : State) :
    decodeHcw (head ++ x) n k = some (readOf p) ∧
      exec (readOf p) s = .next (answer (.data (portRead p s)) s) := by
  refine ⟨?_, exec_readOf p s⟩
  simp [decodeHcw_append, hop, harg]

/-- A head byte with op 1 and the index of a port writes the data byte to that port (30_encoding.md R88). -/
theorem writeWord_decodes_and_stores (hop : head.extractLsb' 4 4 = (1 : BitVec 4))
    (harg : portOfIndex (head.extractLsb' 0 4) = some p) (v : Byte) (n k : Nat) (s : State) :
    decodeHcw (head ++ v) n k = some (writeOf p v) ∧
      exec (writeOf p v) s = .next (portWrite p v s) := by
  refine ⟨?_, exec_writeOf p v s⟩
  simp [decodeHcw_append, hop, harg]

/-- Only the port FLAGS reaches the flags, and there a write clears (40_register_ports.md R114). -/
theorem portWrite_interruptFlags (p : Port) (v : Byte) (s : State) :
    (portWrite p v s).interruptFlags =
      if p = .flags then s.interruptFlags &&& ~~~v else s.interruptFlags := by
  cases p <;> rfl

/-- No port write sets a flag (40_register_ports.md R114). -/
theorem portWrite_sets_no_flag (p : Port) (v : Byte) (s : State) :
    (portWrite p v s).interruptFlags &&& ~~~s.interruptFlags = 0 := by
  rw [portWrite_interruptFlags]
  split
  · rw [BitVec.and_assoc, BitVec.and_comm (~~~v), ← BitVec.and_assoc, BitVec.and_not_self]
    exact BitVec.zero_and
  · exact BitVec.and_not_self _

theorem clearFlags_zero (s : State) : clearFlags 0x00 s = s := by
  have kept : s.interruptFlags &&& ~~~0x00 = s.interruptFlags := BitVec.and_allOnes
  rw [clearFlags, kept]

theorem clearFlags_allOnes (s : State) : clearFlags 0xFF s = { s with interruptFlags := 0x00 } := by
  simp [clearFlags]

/-- Settles O3: each word has op 0 and the index of its port, and `answer` sets the result only. -/
theorem readCommandsAnswerTheirPort : Obligations.ReadCommandsAnswerTheirPort :=
  fun s x n k =>
    ⟨readWord_decodes_and_answers (p := .ctrla) (by decide) (by decide) x n k s,
     readWord_decodes_and_answers (p := .ctrlb) (by decide) (by decide) x n k s,
     readWord_decodes_and_answers (p := .count) (by decide) (by decide) x n k s,
     readWord_decodes_and_answers (p := .mask) (by decide) (by decide) x n k s,
     readWord_decodes_and_answers (p := .flags) (by decide) (by decide) x n k s⟩

/-- Settles O5: each word has op 1 and the index of its port, and `portWrite` sets that register only. -/
theorem writeControlAndMaskStoreWholeByte : Obligations.WriteControlAndMaskStoreWholeByte :=
  fun s v n k =>
    ⟨writeWord_decodes_and_stores (p := .ctrla) (by decide) (by decide) v n k s,
     writeWord_decodes_and_stores (p := .ctrlb) (by decide) (by decide) v n k s,
     writeWord_decodes_and_stores (p := .mask) (by decide) (by decide) v n k s⟩

/-- Settles O6: WR FLAGS is `clearFlags`, whose two extreme masks are the no-op and the full clear, and
every port write keeps the flags within the old ones. -/
theorem writeFlagsClearsOnes : Obligations.WriteFlagsClearsOnes := by
  intro s v n k
  obtain ⟨decoded, stored⟩ :=
    writeWord_decodes_and_stores (head := 0x16) (p := .flags) (by decide) (by decide) v n k s
  have noop : exec (.wrFlags 0x00) s = .next s :=
    (exec_wrFlags s 0x00).trans (congrArg _ (clearFlags_zero s))
  have clearAll : exec (.wrFlags 0xFF) s = .next { s with interruptFlags := 0x00 } :=
    (exec_wrFlags s 0xFF).trans (congrArg _ (clearFlags_allOnes s))
  exact ⟨decoded, stored, noop, clearAll,
    fun p => ⟨portWrite p v s, exec_writeOf p v s, portWrite_sets_no_flag p v s⟩⟩

end Sys2Proof.Machine
end

section
/-! PROOFS. The pin rows of the non-PWM modes: one action by COM for each pin, the same under every non-PWM
selector, and that action as a pin driven to a level. -/

namespace Sys2Proof.Machine

/-- The rows of a pin and a COM value under the non-PWM selectors, WGM 0, 2, 4 and 6 (30_encoding.md R75, R91). -/
def nonPwmRows (X : Pin) (c : Com) : List Instr :=
  [Mode.normal, .ctc, .reserved4, .reserved6].map fun m => pinLogicOf X m c 0

/-- Every row of `nonPwmRows` is the non-PWM action of its pin and COM value (42_waveform_tick.md R134). -/
theorem exec_of_mem_nonPwmRows {X : Pin} {c : Com} {s t : State} (action : nonPwmAction X c s = t) :
    ∀ i ∈ nonPwmRows X c, exec i s = .next t := by
  have nonPwm : ∀ m ∈ [Mode.normal, .ctc, .reserved4, .reserved6], isPwm m = false := by decide
  refine List.forall_mem_map.2 fun m hm => ?_
  rw [exec_pinLogicOf_nonPwm X m c 0 s (nonPwm m hm), action]

/-- Settles O12: the rows of each pin and COM value are `nonPwmRows`, and COM 1, 2 and 3 are the toggle, the
clear and the set of the pin driver. -/
theorem nonPwmRowsActByComValue : Obligations.NonPwmRowsActByComValue := by
  intro s
  have com0 (X : Pin) : ∀ i ∈ nonPwmRows X .com0, exec i s = .next s :=
    exec_of_mem_nonPwmRows (nonPwmAction_com0 s X)
  exact
    ⟨List.forall_mem_append (l₁ := nonPwmRows .a .com0).2 ⟨com0 .a, com0 .b⟩,
     exec_of_mem_nonPwmRows (X := .a) (c := .com1) (toggle_a s),
     exec_of_mem_nonPwmRows (X := .b) (c := .com1) (toggle_b s),
     exec_of_mem_nonPwmRows (X := .a) (c := .com2) (setLow_a s),
     exec_of_mem_nonPwmRows (X := .b) (c := .com2) (setLow_b s),
     exec_of_mem_nonPwmRows (X := .a) (c := .com3) (setHigh_a s),
     exec_of_mem_nonPwmRows (X := .b) (c := .com3) (setHigh_b s)⟩

end Sys2Proof.Machine
end

section
/-! PROOFS. The prescaler: which row ADVANCE runs, the dividing rows as runs of ticks with a carried remainder,
and that running twice is running once. -/

namespace Sys2Proof.Machine

/-! ### The row of a clock select -/

/-- ADVANCE runs the row of the clock select held in `controlB[2:0]` (43_prescaler.md R171, 30_encoding.md R76). -/
theorem exec_advance_of_controlB {s : State} (v : BitVec 3) (h : s.controlB &&& 0x07 = v.setWidth 8) (n : Nat) :
    exec (.advance n) s = exec (clockOf (clockOfBits v) n) s := by
  rw [exec_advance, exec_clockOf, clock_of_controlB v h]

/-- The dividing rows, each with its divider and its CS value (43_prescaler.md R170). -/
def dividingRows : List ((Nat → Instr) × Nat × Byte) :=
  [(.clkDiv1, 1, 0x01), (.clkDiv8, 8, 0x02), (.clkDiv64, 64, 0x03), (.clkDiv256, 256, 0x04), (.clkDiv1024, 1024, 0x05)]

theorem divider_pos : ∀ p ∈ dividingRows, 0 < p.2.1 := by
  simp [dividingRows]

theorem exec_dividingRow (s : State) (n : Nat) :
    ∀ p ∈ dividingRows, exec (p.1 n) s = .next (advanceRunning p.2.1 n s) := by
  simp [dividingRows, advanceBy]

theorem exec_advance_dividingRow (s : State) (n : Nat) :
    ∀ p ∈ dividingRows, s.controlB &&& 0x07 = p.2.2 → exec (.advance n) s = exec (p.1 n) s := by
  simp only [dividingRows, List.forall_mem_cons]
  exact ⟨exec_advance_of_controlB 1 (n := n), exec_advance_of_controlB 2 (n := n),
    exec_advance_of_controlB 3 (n := n), exec_advance_of_controlB 4 (n := n),
    exec_advance_of_controlB 5 (n := n), List.forall_mem_nil _⟩

/-! ### Running under a divider -/

variable (s : State) {d n : Nat}

/-- Too few host ticks for one tick: all are carried (43_prescaler.md R172, conflict C1). -/
theorem advanceRunning_of_lt (h : s.excessTicks + n < d) :
    advanceRunning d n s = carry (s.excessTicks + n) .ok s := by
  rw [advanceRunning_eq, Nat.div_eq_of_lt h, Nat.mod_eq_of_lt h, ticks]

/-- Enough host ticks for one tick: it runs and consumes the divider (43_prescaler.md R172, conflict C1). -/
theorem advanceRunning_of_le (hd : 0 < d) (h : d ≤ s.excessTicks + n) :
    advanceRunning d n s = advanceRunning d 0 { tick s with excessTicks := s.excessTicks + n - d } := by
  have consumed : { tick s with excessTicks := s.excessTicks + n - d } =
    carry (s.excessTicks + n - d) (tick s).result (tick s) := rfl
  have quotient : (s.excessTicks + n) / d = (s.excessTicks + n - d) / d + 1 :=
    Nat.div_eq_sub_div hd h
  rw [consumed, advanceRunning_eq, advanceRunning_eq, quotient, Nat.mod_eq_sub_mod h, ticks, ticks_carry]
  rfl

/-- Two runs under one divider are one run: the remainder of the first is carried into the second (43_prescaler.md
R175 (1)). -/
theorem advanceRunning_advanceRunning (hd : 0 < d) (a b : Nat) :
    advanceRunning d b (advanceRunning d a s) = advanceRunning d (a + b) s := by
  have total : s.excessTicks + (a + b) = d * ((s.excessTicks + a) / d) + ((s.excessTicks + a) % d + b) := by
    rw [← Nat.add_assoc, ← Nat.add_assoc, Nat.div_add_mod]
  have quotient : (s.excessTicks + (a + b)) / d =
      (s.excessTicks + a) / d + ((s.excessTicks + a) % d + b) / d := by
    rw [total, Nat.mul_add_div hd]
  have remainder : (s.excessTicks + (a + b)) % d = ((s.excessTicks + a) % d + b) % d := by
    rw [total, Nat.mul_add_mod]
  rw [advanceRunning_eq s d (a + b), quotient, remainder, ticks_add, advanceRunning_eq s d a, advanceRunning_eq,
    ticks_carry]
  rfl

/-! ### Running twice -/

/-- ADVANCE leaves the clock select as it is (42_waveform_tick.md R148). -/
theorem advanceBy_clock (c : ClockSelect) (n : Nat) : (advanceBy c n s).clock = s.clock := by
  obtain ⟨k, e, r, ran⟩ := advanceBy_eq_carry s c n
  rw [ran]
  exact ticks_clock s k

theorem advanceBy_advanceBy (c : ClockSelect) (a b : Nat) :
    advanceBy c b (advanceBy c a s) = advanceBy c (a + b) s := by
  cases c with
  | stop => rfl
  | div1 => exact advanceRunning_advanceRunning s (by decide) a b
  | div8 => exact advanceRunning_advanceRunning s (by decide) a b
  | div64 => exact advanceRunning_advanceRunning s (by decide) a b
  | div256 => exact advanceRunning_advanceRunning s (by decide) a b
  | div1024 => exact advanceRunning_advanceRunning s (by decide) a b
  | ext6 => rfl
  | ext7 => rfl

/-! ### The statements -/

/-- Settles O35: the second ADVANCE finds the same clock select, and two runs under one clock select are one. -/
theorem advanceSplits : Obligations.AdvanceSplits := by
  intro s a b
  refine ⟨_, _, exec_advance s a, exec_advance _ b, ?_⟩
  rw [advanceBy_clock, advanceBy_advanceBy, exec_advance]

/-- Settles O32: the two cases of the remainder are `advanceRunning_of_lt` and `advanceRunning_of_le`, and the tick
that the second one runs is the tick row that the control word selects. -/
theorem runningClockConsumesDividerPerTick : Obligations.RunningClockConsumesDividerPerTick := by
  intro s t n ticked p row
  have selected : exec (decodeWgm (s.controlB ++ s.controlA)) s = .next (tick s) := exec_tickOf s.mode s
  obtain rfl : tick s = t := Host.Outcome.next.inj (selected.symm.trans ticked)
  refine ⟨exec_advance_dividingRow s n p row, fun few => ?_, fun enough => ?_⟩
  · rw [exec_dividingRow s n p row, advanceRunning_of_lt s few, carry]
  · rw [exec_dividingRow s n p row, exec_dividingRow _ 0 p row,
      advanceRunning_of_le s (divider_pos p row) enough]

/-- Settles O33: remainder and number of ticks are those of `advanceRunning`, and each tick asks once. -/
theorem runningClockTickCountAndRemainder : Obligations.RunningClockTickCountAndRemainder := by
  intro s n
  refine List.forall_mem_map (f := fun p => (p.1, p.2.1)) (l := dividingRows) |>.2 fun p row => ?_
  exact ⟨_, exec_dividingRow s n p row, rfl, rfl, Nat.mod_lt _ (divider_pos p row), ticks_asked s _⟩

/-- Settles O31: both are the stopped row, which sets the remainder and the result only. -/
theorem stoppedClockDiscardsRemainder : Obligations.StoppedClockDiscardsRemainder :=
  fun _ n => ⟨rfl, fun stopped => exec_advance_of_controlB 0 stopped n⟩

/-- Settles O34: the rows of CS 6 and 7 set the result only, and ADVANCE runs them under those CS values. -/
theorem externalClockIsConfigError : Obligations.ExternalClockIsConfigError :=
  fun _ n => ⟨rfl, rfl, fun ext6 => exec_advance_of_controlB 6 ext6 n, fun ext7 => exec_advance_of_controlB 7 ext7 n⟩

end Sys2Proof.Machine
end

section
/-! PROOFS. The counter under divider 1: what one tick does to it in each mode, and from that the counter after
any number of ticks as long as TOP stays put. -/

namespace Sys2Proof.Machine

variable {s : State} {m : Mode} {top : Byte}

/-! ### The counter after one tick -/

/-- Normal mode only wraps (42_waveform_tick.md R135, R137). -/
theorem tickAs_count_of_normal (h : handleMode m = handleNormal) : (tickAs m s).count = s.count + 1 := by
  rw [tickAs_count, h]
  simp [handleNormal]

/-- CTC clears at the value just synchronised (42_waveform_tick.md R136). -/
theorem tickAs_count_ctc (s : State) :
    (tickAs .ctc s).count = if s.count = s.compareBufferA then 0 else s.count + 1 := by
  rw [tickAs_count]
  by_cases atTop : s.count = s.compareBufferA <;> simp [handleMode, handleCtc, atTop]

/-- Fast PWM clears at the latched TOP (42_waveform_tick.md R138). -/
theorem tickAs_count_of_fast (h : handleMode m s.count (detected s) = handleFast top s.count (detected s)) :
    (tickAs m s).count = if s.count = top then 0 else s.count + 1 := by
  rw [tickAs_count, h]
  by_cases atTop : s.count = top <;> simp [handleFast, atTop, syncIf_eq]

/-- Phase-correct PWM turns downward at the latched TOP and upward at 0 (42_waveform_tick.md R141). -/
theorem tickAs_countingDownwards_of_phase
    (h : handleMode m s.count (detected s) = handlePhase top s.count (detected s)) :
    (tickAs m s).countingDownwards =
      if s.countingDownwards then !decide (s.count = 0) else decide (s.count = top) := by
  rw [tickAs_countingDownwards, h]
  simp [handlePhase, turn_countingDownwards, syncIf_eq]

/-- Phase-correct PWM steps in the direction just updated (42_waveform_tick.md R146). -/
theorem tickAs_count_of_phase
    (h : handleMode m s.count (detected s) = handlePhase top s.count (detected s)) :
    (tickAs m s).count = if (tickAs m s).countingDownwards then s.count - 1 else s.count + 1 := by
  have kept : (handleMode m s.count (detected s)).count = s.count := by
    rw [h]
    simp [handlePhase, syncIf_eq]
  rw [tickAs_count, tickAs_countingDownwards, kept]

/-! ### A TOP that stays put -/

/-- The selected mode is `m`, and its TOP is `top` and stays so: it is fixed, or compare-A holds it and so does the
buffer (42_waveform_tick.md R132, R133). The modes that only wrap have TOP 0xFF. -/
def HoldsTop (m : Mode) (top : Byte) (s : State) : Prop :=
  s.mode = m ∧
    match m with
    | .normal | .reserved4 | .reserved6 | .fastpwmFf | .pcpwmFf => top = 0xFF
    | .ctc | .fastpwmOcra | .pcpwmOcra => top = s.compareA ∧ top = s.compareBufferA

/-- Whenever a tick synchronises, compare-A does not change if it equals its buffer (42_waveform_tick.md R133). -/
theorem tickAs_compareA_of_synchronised (m : Mode) (h : s.compareBufferA = s.compareA) :
    (tickAs m s).compareA = s.compareA := by
  rw [tickAs_compareA]
  cases m <;> simp only [handleMode, handleNormal, handleCtc, handleFast, handlePhase, syncIf_eq] <;> simp [h]

/-- A tick keeps TOP: it writes neither the control registers nor the buffer. -/
theorem HoldsTop.tick (h : HoldsTop m top s) : HoldsTop m top (tick s) := by
  obtain ⟨selected, stays⟩ := h
  have compared (h : top = s.compareA ∧ top = s.compareBufferA) :
      top = (Machine.tick s).compareA ∧ top = (Machine.tick s).compareBufferA := by
    obtain ⟨active, buffer⟩ := h
    have kept : (Machine.tick s).compareA = s.compareA :=
      tickAs_compareA_of_synchronised s.mode (buffer.symm.trans active)
    exact ⟨active.trans kept.symm, buffer.trans (tick_compareBufferA s).symm⟩
  refine ⟨(tick_mode s).trans selected, ?_⟩
  cases m with
  | normal | reserved4 | reserved6 | fastpwmFf | pcpwmFf => exact stays
  | ctc | fastpwmOcra | pcpwmOcra => exact compared stays

theorem HoldsTop.ticks (h : HoldsTop m top s) (k : Nat) : HoldsTop m top (ticks k s) :=
  ticks_induction s (HoldsTop m top) (fun _ => HoldsTop.tick) k h

/-- Under `HoldsTop` a tick is the one of that mode (42_waveform_tick.md R132). -/
theorem HoldsTop.tick_eq (h : HoldsTop m top s) : Machine.tick s = tickAs m s := by
  rw [Machine.tick, h.1]

/-- A run may also be cut before its last tick. -/
theorem ticks_succ (k : Nat) (s : State) : ticks (k + 1) s = tick (ticks k s) := ticks_add s k 1

/-! ### Modes that clear at TOP -/

/-- Outside the phase-correct modes a tick takes the counter from TOP to 0 and else up. -/
theorem HoldsTop.tick_count (h : HoldsTop m top s) (clears : m ∉ [Mode.pcpwmFf, .pcpwmOcra]) :
    (Machine.tick s).count = if s.count = top then 0 else s.count + 1 := by
  have wraps (h : handleMode m = handleNormal) (fixed : top = 0xFF) :
      (tickAs m s).count = if s.count = top then 0 else s.count + 1 := by
    rw [tickAs_count_of_normal h, fixed]
    split <;> simp_all
  rw [h.tick_eq]
  obtain ⟨-, stays⟩ := h
  cases m with
  | normal | reserved4 | reserved6 => exact wraps rfl stays
  | fastpwmFf => exact tickAs_count_of_fast (stays ▸ rfl)
  | fastpwmOcra => exact tickAs_count_of_fast (stays.1 ▸ rfl)
  | ctc => exact stays.2 ▸ tickAs_count_ctc s
  | pcpwmFf | pcpwmOcra => simp at clears

/-- A step with a clear at TOP is addition modulo TOP + 1. -/
theorem toNat_clearAtTop {c top : Byte} (within : c.toNat ≤ top.toNat) :
    (if c = top then 0 else c + 1).toNat = (c.toNat + 1) % (top.toNat + 1) := by
  split
  · next atTop => simp [atTop]
  · next notTop =>
    have below : c.toNat < top.toNat := by bv_omega
    rw [Nat.mod_eq_of_lt (Nat.succ_lt_succ below)]
    bv_omega

/-- A counter within TOP counts the ticks modulo TOP + 1. -/
theorem HoldsTop.ticks_count (h : HoldsTop m top s) (clears : m ∉ [Mode.pcpwmFf, .pcpwmOcra])
    (within : s.count.toNat ≤ top.toNat) (n : Nat) :
    (Machine.ticks n s).count.toNat = (s.count.toNat + n) % (top.toNat + 1) := by
  induction n with
  | zero => exact (Nat.mod_eq_of_lt (Nat.lt_succ_of_le within)).symm
  | succ n ih =>
    have stillWithin : (Machine.ticks n s).count.toNat ≤ top.toNat :=
      ih ▸ Nat.le_of_lt_succ (Nat.mod_lt _ (Nat.succ_pos _))
    rw [ticks_succ, (h.ticks n).tick_count clears, toNat_clearAtTop stillWithin, ih, Nat.mod_add_mod, Nat.add_assoc]

/-! ### Phase-correct modes -/

theorem HoldsTop.handleMode_eq_handlePhase (h : HoldsTop m top s) (phase : m ∈ [Mode.pcpwmFf, .pcpwmOcra]) :
    handleMode m s.count (detected s) = handlePhase top s.count (detected s) := by
  obtain ⟨-, stays⟩ := h
  simp only [List.mem_cons, List.not_mem_nil, or_false] at phase
  obtain rfl | rfl := phase
  · exact stays ▸ rfl
  · exact stays.1 ▸ rfl

/-- Below TOP, going up or about to turn upward, a tick goes up. -/
theorem HoldsTop.tick_rises (h : HoldsTop m top s) (phase : m ∈ [Mode.pcpwmFf, .pcpwmOcra])
    (below : s.count.toNat < top.toNat) (upward : s.countingDownwards = true → s.count = 0) :
    (Machine.tick s).count.toNat = s.count.toNat + 1 ∧ (Machine.tick s).countingDownwards = false := by
  have handler := h.handleMode_eq_handlePhase phase
  have direction : (tickAs m s).countingDownwards = false := by
    have notTop : s.count ≠ top := fun e => Nat.ne_of_lt below (congrArg BitVec.toNat e)
    rw [tickAs_countingDownwards_of_phase handler]
    split <;> simp_all
  rw [h.tick_eq, tickAs_count_of_phase handler, direction]
  refine ⟨?_, rfl⟩
  simp only [Bool.false_eq_true, if_false]
  bv_omega

/-- Above BOTTOM, going down or about to turn downward, a tick goes down. -/
theorem HoldsTop.tick_falls (h : HoldsTop m top s) (phase : m ∈ [Mode.pcpwmFf, .pcpwmOcra])
    (above : 0 < s.count.toNat) (downward : s.countingDownwards = false → s.count = top) :
    (Machine.tick s).count.toNat = s.count.toNat - 1 ∧ (Machine.tick s).countingDownwards = true := by
  have handler := h.handleMode_eq_handlePhase phase
  have direction : (tickAs m s).countingDownwards = true := by
    have notBottom : s.count ≠ 0 := fun e => Nat.ne_of_gt above (congrArg BitVec.toNat e)
    rw [tickAs_countingDownwards_of_phase handler]
    split <;> simp_all
  rw [h.tick_eq, tickAs_count_of_phase handler, direction]
  refine ⟨?_, rfl⟩
  simp only [if_true]
  bv_omega

/-- From BOTTOM the counter rises to TOP, one per tick, whatever the direction before the first. -/
theorem HoldsTop.ticks_from_bottom (h : HoldsTop m top s) (phase : m ∈ [Mode.pcpwmFf, .pcpwmOcra])
    (bottom : s.count = 0) {n : Nat} (hn : n ≤ top.toNat) :
    (Machine.ticks n s).count.toNat = n ∧ (n ≠ 0 → (Machine.ticks n s).countingDownwards = false) := by
  induction n with
  | zero => exact ⟨congrArg BitVec.toNat bottom, fun e => absurd rfl e⟩
  | succ n ih =>
    obtain ⟨count, direction⟩ := ih (Nat.le_of_succ_le hn)
    have upward (down : (Machine.ticks n s).countingDownwards = true) : (Machine.ticks n s).count = 0 := by
      have atStart : n = 0 := by_contra fun e => absurd (direction e) (by simp [down])
      exact BitVec.eq_of_toNat_eq (count.trans atStart)
    obtain ⟨risen, up⟩ := (h.ticks n).tick_rises phase (by omega) upward
    rw [ticks_succ]
    exact ⟨by rw [risen, count], fun _ => up⟩

/-- From TOP the counter falls to BOTTOM, one per tick, whatever the direction before the first. -/
theorem HoldsTop.ticks_from_top (h : HoldsTop m top s) (phase : m ∈ [Mode.pcpwmFf, .pcpwmOcra])
    (atTop : s.count = top) {n : Nat} (hn : n ≤ top.toNat) :
    (Machine.ticks n s).count.toNat = top.toNat - n ∧
      (n ≠ 0 → (Machine.ticks n s).countingDownwards = true) := by
  induction n with
  | zero => exact ⟨congrArg BitVec.toNat atTop, fun e => absurd rfl e⟩
  | succ n ih =>
    obtain ⟨count, direction⟩ := ih (Nat.le_of_succ_le hn)
    have downward (up : (Machine.ticks n s).countingDownwards = false) : (Machine.ticks n s).count = top := by
      have atStart : n = 0 := by_contra fun e => absurd (direction e) (by simp [up])
      exact BitVec.eq_of_toNat_eq (by rw [count, atStart, Nat.sub_zero])
    obtain ⟨fallen, down⟩ := (h.ticks n).tick_falls phase (by omega) downward
    rw [ticks_succ]
    exact ⟨by rw [fallen, count, Nat.sub_sub], fun _ => down⟩

/-! ### The statements -/

/-- Under divider 1 with nothing carried, ADVANCE runs one tick per host tick (43_prescaler.md R172). -/
theorem exec_advance_divider_one (divider : s.controlB &&& 0x07 = 0x01) (carried : s.excessTicks = 0) (n : Nat) :
    exec (.advance n) s = .next (carry 0 .ok (ticks n s)) := by
  have run : exec (.advance n) s = .next (advanceRunning 1 n s) := exec_advance_of_controlB 1 divider n
  rw [run, advanceRunning_eq, carried, Nat.mod_one, Nat.zero_add, Nat.div_one]

/-- Settles O56: Normal mode counts modulo 256, as a mode with TOP 0xFF that a tick from TOP takes to 0. -/
theorem normalCounterCountsHostTicks : Obligations.NormalCounterCountsHostTicks := by
  intro s n selected divider carried
  have counted (m : Mode) (clears : m ∉ [Mode.pcpwmFf, .pcpwmOcra]) (h : HoldsTop m 0xFF s) :
      (ticks n s).count = s.count + BitVec.ofNat 8 n := by
    have modulo := h.ticks_count clears (Nat.le_of_lt_succ s.count.isLt) n
    exact BitVec.eq_of_toNat_eq (by simpa using modulo)
  refine ⟨_, exec_advance_divider_one divider carried n, ?_⟩
  simp only [List.mem_cons, List.not_mem_nil, or_false] at selected
  obtain row | row | row := selected
  · exact counted .normal (by decide) ⟨mode_of_decodeWgm row, rfl⟩
  · exact counted .reserved4 (by decide) ⟨mode_of_decodeWgm row, rfl⟩
  · exact counted .reserved6 (by decide) ⟨mode_of_decodeWgm row, rfl⟩

/-- Settles O57: in each of the three modes TOP stays put, so the counter from 0 is the ticks modulo TOP + 1. -/
theorem clearingModesHavePeriodTopPlusOne : Obligations.ClearingModesHavePeriodTopPlusOne := by
  intro s top n selected divider carried bottom
  have counted (m : Mode) (clears : m ∉ [Mode.pcpwmFf, .pcpwmOcra]) (h : HoldsTop m top s) :
      (ticks n s).count.toNat = n % (top.toNat + 1) := by
    have start : s.count.toNat = 0 := congrArg BitVec.toNat bottom
    rw [h.ticks_count clears (start ▸ Nat.zero_le _), start, Nat.zero_add]
  refine ⟨_, exec_advance_divider_one divider carried n, ?_⟩
  simp only [List.mem_cons, List.not_mem_nil, or_false] at selected
  obtain ⟨row, fixed⟩ | ⟨row | row, compared⟩ := selected
  · exact counted .fastpwmFf (by decide) ⟨mode_of_decodeWgm row, fixed⟩
  · exact counted .ctc (by decide) ⟨mode_of_decodeWgm row, compared⟩
  · exact counted .fastpwmOcra (by decide) ⟨mode_of_decodeWgm row, compared⟩

/-- Settles O58: in either mode TOP stays put, so the counter rises from BOTTOM to TOP, and from the state reached
there it falls back. The direction at the start and TOP = 0 make no difference to it. -/
theorem phaseCorrectHasPeriodTwiceTop : Obligations.PhaseCorrectHasPeriodTwiceTop := by
  intro s top selected _ divider carried bottom _
  obtain ⟨m, phase, h⟩ : ∃ m ∈ [Mode.pcpwmFf, .pcpwmOcra], HoldsTop m top s := by
    obtain ⟨row, fixed⟩ | ⟨row, compared⟩ := selected
    · exact ⟨.pcpwmFf, by decide, mode_of_decodeWgm row, fixed⟩
    · exact ⟨.pcpwmOcra, by decide, mode_of_decodeWgm row, compared⟩
  have atTop : (ticks top.toNat s).count = top :=
    BitVec.eq_of_toNat_eq (h.ticks_from_bottom phase bottom le_rfl).1
  refine ⟨fun n hn => ?rise, fun n hn => ?fall⟩
  case rise =>
    exact ⟨_, exec_advance_divider_one divider carried n, (h.ticks_from_bottom phase bottom hn).1⟩
  case fall =>
    refine ⟨_, exec_advance_divider_one divider carried (top.toNat + n), ?_⟩
    rw [ticks_add]
    exact (h.ticks top.toNat).ticks_from_top phase atTop hn

end Sys2Proof.Machine
end

section
/-! PROOFS. Interrupts at a tick: the overflow condition of each mode and the flags after a tick, the sink calls
a tick makes before its request, the grant of overflow before all else, the commands that run no tick, and the
handler answers as mere observations. -/

namespace Sys2Proof.Machine

variable {s t : State}

/-! ### The dispatcher rows -/

/-- Executing the row of a source, with the mask that keeps every flag but its own (44_interrupt_dispatch.md R186). -/
theorem exec_dispatchOf_some (s : State) {v : Source} {kept : Byte} (own : ~~~flagBit v = kept) :
    exec (dispatchOf (some v)) s = .next
      (if (answerOf s).intEnabled then
        { askedOnce s with
          interruptFlags := s.interruptFlags &&& kept
          events := s.events ++ requestEvents v (answerOf s).handled }
      else askedOnce s) := by
  rw [exec_dispatchOf, dispatchCase_some, own]

/-- Settles O29: each source row is `dispatchCase` of its source, DISPATCH.NONE of none. -/
theorem dispatchCasesGrantOneSource : Obligations.DispatchCasesGrantOneSource := by
  intro s
  refine ⟨exec_dispatchOf none s, ?_⟩
  simp only [List.forall_mem_cons]
  exact ⟨exec_dispatchOf_some s (v := .ovf) (by decide), exec_dispatchOf_some s (v := .compa) (by decide),
    exec_dispatchOf_some s (v := .compb) (by decide), List.forall_mem_nil _⟩

/-! ### The flags after a tick -/

/-- The overflow flag if a tick of mode `m` sets it: at the latched TOP, or at the BOTTOM turn in the phase-correct
modes (42_waveform_tick.md R135 to R143). -/
def overflowBit (m : Mode) (s : State) : Byte :=
  match m with
  | .normal | .reserved4 | .reserved6 | .ctc | .fastpwmFf => if s.count = 0xFF then 0x01 else 0x00
  | .fastpwmOcra => if s.count = s.compareA then 0x01 else 0x00
  | .pcpwmFf | .pcpwmOcra => if s.countingDownwards = true ∧ s.count = 0 then 0x01 else 0x00

theorem ite_or_eq_or_ite (c : Prop) [Decidable c] (f b : Byte) :
    (if c then f ||| b else f) = f ||| if c then b else 0 := by
  split <;> simp

/-- Step 2 of a tick sets the overflow flag under the condition of its mode and leaves the other flags. -/
theorem handleMode_interruptFlags (m : Mode) (s : State) :
    (handleMode m s.count s).interruptFlags = s.interruptFlags ||| overflowBit m s := by
  cases m with
  | normal | reserved4 | reserved6 => simp [handleMode, handleNormal, overflowBit, flagBit, ite_or_eq_or_ite]
  | ctc => simp [handleMode, handleCtc, overflowBit, flagBit, ite_or_eq_or_ite]
  | fastpwmFf | fastpwmOcra => simp [handleMode, handleFast, overflowBit, flagBit, ite_or_eq_or_ite, syncIf_eq]
  | pcpwmFf | pcpwmOcra =>
    simp [handleMode, handlePhase, overflowBit, turn_interruptFlags, ite_or_eq_or_ite, syncIf_eq]

/-- Detection writes nothing that the overflow condition reads. -/
theorem overflowBit_detected (m : Mode) (s : State) : overflowBit m (detected s) = overflowBit m s := by
  cases m <;> rfl

/-- The flags that steps 1 to 3 of a tick leave to the dispatcher (42_waveform_tick.md R130). -/
theorem handleMode_detected_interruptFlags (m : Mode) (s : State) :
    (handleMode m s.count (detected s)).interruptFlags = detectedFlags s ||| overflowBit m s := by
  rw [← overflowBit_detected]
  exact handleMode_interruptFlags m (detected s)

/-- Settles O21: each row is the tick of its mode, whose overflow condition is `overflowBit`. -/
theorem tickFlagsAfterDispatch : Obligations.TickFlagsAfterDispatch := by
  intro s
  have row (m : Mode) : ∃ t : State, exec (tickOf m) s = .next t ∧
      t.interruptFlags = dispatchedFlags (answerOf s).intEnabled (detectedFlags s ||| overflowBit m s)
        s.interruptMask :=
    ⟨_, exec_tickOf m s, by rw [tickAs_interruptFlags, handleMode_detected_interruptFlags]⟩
  simp only [List.forall_mem_cons]
  exact ⟨⟨row .normal, row .reserved4, row .reserved6, row .ctc, row .fastpwmFf, List.forall_mem_nil _⟩,
    row .fastpwmOcra, row .pcpwmFf, row .pcpwmOcra, List.forall_mem_nil _⟩

/-! ### The events of a tick before its request -/

theorem OnlyPin.events_eq_append_calls {X : Pin} (h : OnlyPin X s t) :
    ∃ calls, t.events = s.events ++ calls ∧ ∀ e ∈ calls, ∃ l, e = .sinkCall X l := by
  obtain ⟨l, calls, rfl, called⟩ := h
  exact ⟨calls, writeLevel_events _ X l, called⟩

/-- Every mode handler ends in the logic of pin A and then of pin B, and emits nothing before (42_waveform_tick.md
R135, R136, R138, R141; decision D11). -/
theorem handleMode_pins (m : Mode) (c0 : Byte) (s : State) :
    ∃ r u : State, r.events = s.events ∧ OnlyPin .a r u ∧ OnlyPin .b u (handleMode m c0 s) := by
  cases m with
  | normal | reserved4 | reserved6 =>
    exact ⟨_, _, by simp, onlyPin_nonPwmPin _ .a c0, onlyPin_nonPwmPin _ .b c0⟩
  | ctc => exact ⟨_, _, by simp, onlyPin_nonPwmPin _ .a c0, onlyPin_nonPwmPin _ .b c0⟩
  | fastpwmFf | fastpwmOcra =>
    exact ⟨_, _, by simp [syncIf_eq], onlyPin_fastPinLogic _ .a _ _ c0, onlyPin_fastPinLogic _ .b _ _ c0⟩
  | pcpwmFf | pcpwmOcra =>
    exact ⟨_, _, by simp [syncIf_eq], onlyPin_phasePinLogic _ .a _ _ c0, onlyPin_phasePinLogic _ .b _ _ c0⟩

/-- Step 2 of a tick appends the sink calls of pin A, then those of pin B (60_exceptions.md R206). -/
theorem handleMode_events (m : Mode) (c0 : Byte) (s : State) :
    ∃ callsA callsB : List Event, (handleMode m c0 s).events = s.events ++ callsA ++ callsB ∧
      (∀ e ∈ callsA, ∃ l, e = .sinkCall .a l) ∧ ∀ e ∈ callsB, ∃ l, e = .sinkCall .b l := by
  obtain ⟨r, u, silent, pinA, pinB⟩ := handleMode_pins m c0 s
  obtain ⟨callsA, appendedA, calledA⟩ := pinA.events_eq_append_calls
  obtain ⟨callsB, appendedB, calledB⟩ := pinB.events_eq_append_calls
  exact ⟨callsA, callsB, by rw [appendedB, appendedA, silent], calledA, calledB⟩

/-! ### Overflow is granted first -/

/-- With overflow pending and enabled, step 4 grants it and it alone (44_interrupt_dispatch.md R186). -/
theorem dispatch_of_ovf (pending : s.interruptFlags.getLsbD 0 = true) (unmasked : s.interruptMask.getLsbD 0 = true)
    (enabled : (answerOf s).intEnabled = true) :
    dispatch s = { askedOnce s with
      interruptFlags := s.interruptFlags &&& 0xFE
      events := s.events ++ requestEvents .ovf (answerOf s).handled } := by
  have selected : irqSelect s.irqBits = some .ovf := by
    rw [irqSelect, irqBits_getLsbD s 0 (by decide), pending, unmasked]
    rfl
  rw [dispatch, selected, dispatchCase_some, if_pos enabled]
  rfl

theorem getLsbD_zero_of_and_seven : ∀ {b : Byte}, b &&& 0x07 = 0x07 → b.getLsbD 0 = true := by
  decide

/-- Where all three flags are set, setting some of them changes nothing. -/
theorem or_flags_of_all_set {f b : Byte} (all : f &&& 0x07 = 0x07) (flags : b &&& 0x07 = b) : f ||| b = f := by
  calc
    f ||| b = f ||| f &&& 0x07 &&& b := by rw [all, BitVec.and_comm, flags]
    _ = f := by ext i; grind

theorem overflowBit_and_seven (m : Mode) (s : State) : overflowBit m s &&& 0x07 = overflowBit m s := by
  cases m <;> simp only [overflowBit] <;> split <;> rfl

/-- With all three flags set, steps 1 to 3 of a tick leave the flags as they are. -/
theorem handleMode_detected_interruptFlags_of_all_set (m : Mode) (all : s.interruptFlags &&& 0x07 = 0x07) :
    (handleMode m s.count (detected s)).interruptFlags = s.interruptFlags := by
  have noneDetected : detectedFlags s = s.interruptFlags := by
    unfold detectedFlags
    split
    · rfl
    · rw [or_flags_of_all_set all (by split <;> rfl), or_flags_of_all_set all (by split <;> rfl)]
  rw [handleMode_detected_interruptFlags, noneDetected, or_flags_of_all_set all (overflowBit_and_seven m s)]

/-- Settles O25: a tick reaches its dispatcher with the flags it began with and sink calls appended, and there
overflow is granted first. -/
theorem singleInterruptPerTick : Obligations.SingleInterruptPerTick := by
  intro s i row allSet allUnmasked enabled
  obtain ⟨m, rfl⟩ := mem_tickRows row
  have flags := handleMode_detected_interruptFlags_of_all_set m allSet
  have granted : tickAs m s = _ := (tickAs_eq_dispatch m s).trans <|
    dispatch_of_ovf (by simpa [flags] using getLsbD_zero_of_and_seven allSet)
      (by simpa using getLsbD_zero_of_and_seven allUnmasked) (by simpa [answerOf] using enabled)
  obtain ⟨callsA, callsB, appended, calledA, calledB⟩ := handleMode_events m s.count (detected s)
  refine ⟨_, callsA ++ callsB, exec_tickOf m s, ?flags, ?events, ?calls⟩
  case flags => rw [granted]; simp [flags]
  case events => rw [granted]; simp [appended, answerOf]
  case calls =>
    exact List.forall_mem_append.2 ⟨fun e h => ⟨.a, calledA e h⟩, fun e h => ⟨.b, calledB e h⟩⟩

/-! ### Commands that run no tick -/

/-- `t` follows `s` without a question to the host and without a request. -/
def NothingEvaluated (s t : State) : Prop :=
  t.asked = s.asked ∧ t.answers = s.answers ∧ ∀ v, Event.irqRequest v ∈ t.events → Event.irqRequest v ∈ s.events

theorem isCommand_tickOf (m : Mode) : (tickOf m).isCommand = false := by cases m <;> rfl

theorem isCommand_clockOf (c : ClockSelect) (n : Nat) : (clockOf c n).isCommand = false := by cases c <;> rfl

theorem isCommand_dispatchOf (o : Option Source) : (dispatchOf o).isCommand = false := by
  rcases o with _ | v
  · rfl
  · cases v <;> rfl

theorem isCommand_pinLogicOf (X : Pin) (m : Mode) (c : Com) (c0 : Byte) :
    (pinLogicOf X m c c0).isCommand = false := by
  cases X <;> cases m <;> cases c <;> rfl

theorem nothingEvaluated_of_events_eq (asked : t.asked = s.asked) (answers : t.answers = s.answers)
    (events : t.events = s.events) : NothingEvaluated s t :=
  ⟨asked, answers, fun _ h => events ▸ h⟩

theorem nothingEvaluated_portWrite (p : Port) (v : Byte) (s : State) : NothingEvaluated s (portWrite p v s) := by
  cases p <;> exact nothingEvaluated_of_events_eq rfl rfl rfl

/-- FOC emits sink calls only (42_waveform_tick.md R149). -/
theorem nothingEvaluated_forceCompare (a b : Bool) (s : State) : NothingEvaluated s (forceCompare a b s) := by
  obtain ⟨u, pinA, pinB⟩ := forceCompare_onlyPin s a b
  exact ⟨forceCompare_asked s a b, forceCompare_answers s a b, fun v h => pinA.irq_mem v (pinB.irq_mem v h)⟩

/-- The meaning of a command other than ADVANCE has no dispatcher in it (40_register_ports.md R116,
44_interrupt_dispatch.md R189). -/
theorem Meaning.nothingEvaluated {i : Instr} {f : State → State} (h : Meaning i f) (command : i.isCommand = true)
    (other : ∀ n, i ≠ .advance n) (s : State) : NothingEvaluated s (f s) := by
  cases h with
  | read p => exact nothingEvaluated_of_events_eq rfl rfl rfl
  | write p v => exact nothingEvaluated_portWrite p v s
  | advance n => exact absurd rfl (other n)
  | foc a b => exact nothingEvaluated_forceCompare a b s
  | attachSink X k => exact nothingEvaluated_of_events_eq (by simp) (by simp) (by simp)
  | reset => exact nothingEvaluated_of_events_eq rfl rfl rfl
  | tick m => simp [isCommand_tickOf] at command
  | clock c n => simp [isCommand_clockOf] at command
  | nonPwm | fast | phase => simp [isCommand_pinLogicOf] at command
  | dispatch o => simp [isCommand_dispatchOf] at command

/-- Settles O53, by the six shapes of meaning that a command can have. -/
theorem onlyAdvanceEvaluatesInterrupts : Obligations.OnlyAdvanceEvaluatesInterrupts := by
  intro i s t command other ran
  obtain ⟨f, meaning⟩ := exists_meaning i
  obtain rfl := meaning.eq_of_exec ran
  exact meaning.nothingEvaluated command other s

/-! ### The handler answers are only observed -/

/-- `t'` is `t` but for the listed answers and the events. -/
def AgreesButAnswers (t t' : State) : Prop := { t' with answers := t.answers, events := t.events } = t

/-- An operation that keeps the sinks and passes a veil over them passes the answers alone. -/
theorem agreesButAnswers_of_veil {t' : State} {l : List HostAnswer} {ev : List Event}
    (veiled : t' = veil s.outputPinSinkA s.outputPinSinkB l ev t) (keptA : t.outputPinSinkA = s.outputPinSinkA)
    (keptB : t.outputPinSinkB = s.outputPinSinkB) : AgreesButAnswers t t' := by
  rw [veiled, ← keptA, ← keptB]
  rfl

theorem Blind.agreesButAnswers {op : State → State} (blind : Blind op) (l : List HostAnswer)
    (keptA : (op s).outputPinSinkA = s.outputPinSinkA) (keptB : (op s).outputPinSinkB = s.outputPinSinkB) :
    AgreesButAnswers (op s) (op { s with answers := l }) := by
  obtain ⟨ev, veiled⟩ := blind s.outputPinSinkA s.outputPinSinkB l s.events s
  exact agreesButAnswers_of_veil veiled keptA keptB

section
variable {l : List HostAnswer} (agree : l.map HostAnswer.intEnabled = s.answers.map HostAnswer.intEnabled)
include agree

theorem agreesButAnswers_dispatchCase (o : Option Source) :
    AgreesButAnswers (dispatchCase o s) (dispatchCase o { s with answers := l }) := by
  obtain ⟨ev, veiled⟩ := dispatchCase_veil o s.outputPinSinkA s.outputPinSinkB l s.events s agree
  exact agreesButAnswers_of_veil veiled (by simp) (by simp)

theorem agreesButAnswers_tickAs (m : Mode) :
    AgreesButAnswers (tickAs m s) (tickAs m { s with answers := l }) := by
  obtain ⟨ev, veiled⟩ := tickAs_veil m s.outputPinSinkA s.outputPinSinkB l s.events s agree
  exact agreesButAnswers_of_veil veiled (by simp) (by simp)

theorem agreesButAnswers_advanceBy (c : ClockSelect) (n : Nat) :
    AgreesButAnswers (advanceBy c n s) (advanceBy c n { s with answers := l }) := by
  obtain ⟨k, ev, veiled⟩ := advanceBy_veil c n s.outputPinSinkA s.outputPinSinkB l s.events s agree
  obtain ⟨j, e, r, run⟩ := advanceBy_eq_carry s c n
  exact agreesButAnswers_of_veil veiled (by rw [run]; exact ticks_outputPinSinkA j s)
    (by rw [run]; exact ticks_outputPinSinkB j s)

/-- Every meaning reads the listed answers for the global enable only, but for the events it emits
(44_interrupt_dispatch.md R187). -/
theorem Meaning.agreesButAnswers {i : Instr} {f : State → State} (h : Meaning i f) :
    AgreesButAnswers (f s) (f { s with answers := l }) := by
  cases h with
  | read p => cases p <;> rfl
  | write p v => cases p <;> rfl
  | advance n => exact agreesButAnswers_advanceBy agree s.clock n
  | foc a b => exact (blind_forceCompare a b).agreesButAnswers l (by simp) (by simp)
  | attachSink X k => cases X <;> rfl
  | reset => rfl
  | tick m => exact agreesButAnswers_tickAs agree m
  | clock c n => exact agreesButAnswers_advanceBy agree c n
  | nonPwm X m c c0 => exact (blind_nonPwmAction X c).agreesButAnswers l (by simp) (by simp)
  | fast X m c c0 => exact (blind_fastPinLogic X c _ c0).agreesButAnswers l (by simp) (by simp)
  | phase X m c c0 => exact (blind_phasePinLogic X c _ c0).agreesButAnswers l (by simp) (by simp)
  | dispatch o => exact agreesButAnswers_dispatchCase agree o

end

/-- Settles O55: `exec` answers by the meaning in both states, and the meaning keeps them in agreement. -/
theorem handlerAnswersOnlyObserve : Obligations.HandlerAnswersOnlyObserve := by
  intro i s t l agree ran
  obtain ⟨f, meaning⟩ := exists_meaning i
  obtain rfl := meaning.eq_of_exec ran
  exact ⟨_, meaning.exec_eq _, meaning.agreesButAnswers agree⟩

end Sys2Proof.Machine
end

section
/-! PROOFS. What a step is, and what every instruction and every step keeps: the parameters and the invariant. Each
claim is a case analysis over the shapes of meaning. -/

namespace Sys2Proof.Machine

variable {s t : State}

/-! ### Instructions and steps -/

/-- Settles O46: every instruction has a meaning, and a meaning answers a next state. -/
theorem everyInstructionCompletes : Obligations.EveryInstructionCompletes := by
  intro i s
  obtain ⟨f, meaning⟩ := exists_meaning i
  exact ⟨f s, meaning.exec_eq s⟩

theorem fetch_of_pending_cons {c : HostCommand} {rest : List HostCommand} {i : Instr}
    (pending : s.pending = c :: rest) (decoded : c.decode = some i) :
    fetch s = .command i (beginCommand rest s) := by
  simp only [fetch, pending, decoded]

theorem fetch_of_pending_undecodable {c : HostCommand} {rest : List HostCommand}
    (pending : s.pending = c :: rest) (undecodable : c.decode = none) : fetch s = .notACommand c.word := by
  simp only [fetch, pending, undecodable]

theorem fetch_of_pending_nil (pending : s.pending = []) : fetch s = .idle := by
  simp only [fetch, pending]

/-- A step that answers a next state is idle or runs one command (00_scope.md R8). -/
theorem step_cases (stepped : step s = .next t) :
    t = s ∨ ∃ i rest, exec i (beginCommand rest s) = .next t := by
  rcases pending : s.pending with _ | ⟨c, rest⟩
  · rw [step, fetch_of_pending_nil pending] at stepped
    exact .inl (Host.Outcome.next.inj stepped).symm
  · rcases decoded : c.decode with _ | i
    · rw [step, fetch_of_pending_undecodable pending decoded] at stepped
      cases stepped
    · rw [step, fetch_of_pending_cons pending decoded] at stepped
      exact .inr ⟨i, rest, stepped⟩

/-- Settles O44: the first pending command decodes, so it is fetched and begun. -/
theorem stepRunsThePendingCommand : Obligations.StepRunsThePendingCommand := by
  intro s c rest i pending decoded
  rw [step, fetch_of_pending_cons pending decoded]
  rfl

/-- Settles O45: with an empty queue the fetch is idle. -/
theorem stepWithoutCommandChangesNothing : Obligations.StepWithoutCommandChangesNothing := by
  intro s pending
  rw [step, fetch_of_pending_nil pending]

/-! ### The parameters -/

theorem advanceBy_params (c : ClockSelect) (n : Nat) (s : State) : (advanceBy c n s).params = s.params := by
  obtain ⟨k, e, r, ran⟩ := advanceBy_eq_carry s c n
  rw [ran]
  exact ticks_params k s

theorem Meaning.params {i : Instr} {f : State → State} (h : Meaning i f) (s : State) :
    (f s).params = s.params := by
  cases h with
  | read p => simp
  | write p v => cases p <;> rfl
  | advance n => exact advanceBy_params s.clock n s
  | clock c n => exact advanceBy_params c n s
  | reset => rfl
  | foc | attachSink | tick | nonPwm | fast | phase | dispatch => simp

/-- Settles O49: no meaning writes the parameters, and beginning a command does not either. -/
theorem parametersNeverChange : Obligations.ParametersNeverChange := by
  have kept (i : Instr) (s t : State) (ran : exec i s = .next t) : t.params = s.params := by
    obtain ⟨f, meaning⟩ := exists_meaning i
    exact meaning.eq_of_exec ran ▸ meaning.params s
  refine ⟨kept, fun s t stepped => ?_⟩
  obtain rfl | ⟨i, rest, ran⟩ := step_cases stepped
  · rfl
  · exact kept i (beginCommand rest s) t ran

/-! ### The invariant -/

theorem and_F8_or {f b : Byte} (hf : f &&& 0xF8 = 0) (hb : b &&& 0xF8 = 0) : (f ||| b) &&& 0xF8 = 0 := by
  rw [BitVec.and_or_distrib_right, hf, hb]
  rfl

theorem and_F8_and {f : Byte} (hf : f &&& 0xF8 = 0) (m : Byte) : f &&& m &&& 0xF8 = 0 := by
  rw [BitVec.and_assoc, BitVec.and_comm m, ← BitVec.and_assoc, hf]
  exact BitVec.zero_and

/-- Step 1 of a tick sets bits 1 and 2 only (42_waveform_tick.md R131). -/
theorem detectedFlags_clean (clean : FlagsClean s) : detectedFlags s &&& 0xF8 = 0 := by
  unfold detectedFlags
  split
  · exact clean
  · exact and_F8_or (and_F8_or clean (by split <;> rfl)) (by split <;> rfl)

theorem overflowBit_clean (m : Mode) (s : State) : overflowBit m s &&& 0xF8 = 0 := by
  cases m <;> simp only [overflowBit] <;> split <;> rfl

/-- The dispatcher clears flags only (44_interrupt_dispatch.md R186). -/
theorem dispatchedFlags_clean (enabled : Bool) {f : Byte} (clean : f &&& 0xF8 = 0) (mask : Byte) :
    dispatchedFlags enabled f mask &&& 0xF8 = 0 := by
  unfold dispatchedFlags
  split_ifs
  · exact clean
  · exact and_F8_and clean _
  · exact and_F8_and clean _
  · exact and_F8_and clean _
  · exact clean

theorem tickAs_inhibitNextCompareMatch (m : Mode) (s : State) :
    (tickAs m s).inhibitNextCompareMatch = false := by
  rw [tickAs_eq_dispatch]
  simp

/-- An operation that keeps the four fields the invariant reads keeps the invariant. -/
theorem TimerInv.of_fields_eq (inv : TimerInv s) (flags : t.interruptFlags = s.interruptFlags)
    (excess : t.excessTicks = s.excessTicks) (inhibit : t.inhibitNextCompareMatch = s.inhibitNextCompareMatch)
    (params : t.params = s.params) : TimerInv t := by
  rw [TimerInv, FlagsClean, RemainderBounded, InhibitNeedsParameter, flags, excess, inhibit, params]
  exact inv

theorem TimerInv.tickAs (inv : TimerInv s) (m : Mode) : TimerInv (tickAs m s) := by
  obtain ⟨clean, bounded, -⟩ := inv
  refine ⟨?flags, by simpa [RemainderBounded] using bounded, fun _ => tickAs_inhibitNextCompareMatch m s⟩
  rw [FlagsClean, tickAs_interruptFlags, handleMode_detected_interruptFlags]
  exact dispatchedFlags_clean _ (and_F8_or (detectedFlags_clean clean) (overflowBit_clean m s)) _

theorem TimerInv.ticks (inv : TimerInv s) (k : Nat) : TimerInv (ticks k s) :=
  ticks_induction s TimerInv (fun u h => h.tickAs u.mode) k inv

/-- The remainder of ADVANCE is below the largest divider (43_prescaler.md R175). -/
theorem advanceBy_remainderBounded (c : ClockSelect) (n : Nat) (bounded : RemainderBounded s) :
    RemainderBounded (advanceBy c n s) := by
  have below (d : Nat) (pos : 0 < d) (le : d ≤ 1024) : RemainderBounded (advanceRunning d n s) :=
    (Nat.mod_lt _ pos).trans_le le
  cases c with
  | stop => exact Nat.zero_lt_succ _
  | div1 => exact below 1 (by decide) (by decide)
  | div8 => exact below 8 (by decide) (by decide)
  | div64 => exact below 64 (by decide) (by decide)
  | div256 => exact below 256 (by decide) (by decide)
  | div1024 => exact below 1024 (by decide) (by decide)
  | ext6 | ext7 => exact bounded

theorem TimerInv.advanceBy (inv : TimerInv s) (c : ClockSelect) (n : Nat) : TimerInv (advanceBy c n s) := by
  have bounded := advanceBy_remainderBounded c n inv.2.1
  obtain ⟨k, e, r, ran⟩ := advanceBy_eq_carry s c n
  obtain ⟨clean, -, inhibit⟩ := inv.ticks k
  rw [ran] at bounded ⊢
  exact ⟨clean, bounded, inhibit⟩

theorem TimerInv.portWrite (inv : TimerInv s) (p : Port) (v : Byte) : TimerInv (portWrite p v s) := by
  obtain ⟨clean, bounded, inhibit⟩ := inv
  cases p with
  | flags => exact ⟨and_F8_and clean _, bounded, inhibit⟩
  | count =>
    refine ⟨clean, bounded, fun noParameter => ?_⟩
    show (s.params.inhibitOnCountWrite || s.inhibitNextCompareMatch) = false
    rw [inhibit noParameter, Bool.or_false]
    exact noParameter
  | ctrla | ctrlb | cmpa | cmpb | mask => exact ⟨clean, bounded, inhibit⟩

theorem TimerInv.dispatchCase (inv : TimerInv s) (o : Option Source) : TimerInv (dispatchCase o s) := by
  obtain ⟨clean, bounded, inhibit⟩ := inv
  rcases o with _ | v
  · exact ⟨clean, bounded, inhibit⟩
  · rw [dispatchCase_some]
    split
    · exact ⟨and_F8_and clean _, bounded, inhibit⟩
    · exact ⟨clean, bounded, inhibit⟩

/-- Settles O47: in the reset state flags, remainder and inhibit flag are all zero. -/
theorem resetMeetsTheInvariant : Obligations.ResetMeetsTheInvariant :=
  ⟨rfl, Nat.zero_lt_succ _, fun _ => rfl⟩

theorem Meaning.keeps_timerInv {i : Instr} {f : State → State} (h : Meaning i f) (inv : TimerInv s) :
    TimerInv (f s) := by
  cases h with
  | write p v => exact inv.portWrite p v
  | advance n => exact inv.advanceBy s.clock n
  | clock c n => exact inv.advanceBy c n
  | tick m => exact inv.tickAs m
  | dispatch o => exact inv.dispatchCase o
  | reset =>
    obtain ⟨clean, bounded, -⟩ := resetMeetsTheInvariant
    exact ⟨clean, bounded, fun _ => rfl⟩
  | read | foc | attachSink | nonPwm | fast | phase =>
    exact inv.of_fields_eq (by simp) (by simp) (by simp) (by simp)

/-- Settles O48: every meaning keeps the invariant, ADVANCE by an induction over its ticks, and a step is idle or
one such command. -/
theorem everyStepKeepsTheInvariant : Obligations.EveryStepKeepsTheInvariant := by
  have kept (i : Instr) (s t : State) (inv : TimerInv s) (ran : exec i s = .next t) : TimerInv t := by
    obtain ⟨f, meaning⟩ := exists_meaning i
    exact meaning.eq_of_exec ran ▸ meaning.keeps_timerInv inv
  refine ⟨kept, fun s t inv stepped => ?_⟩
  obtain rfl | ⟨i, rest, ran⟩ := step_cases stepped
  · exact inv
  · exact kept i (beginCommand rest s) t inv ran

end Sys2Proof.Machine
end

section
/-! PROOFS. The registers that only one source writes: the host's registers by the host's own commands, the active
compare registers by synchronisation in a tick. -/

namespace Sys2Proof.Machine

variable {s t : State}

/-! ### The host's registers -/

/-- `t` has the host's registers and the queue of `s` (10_state.md R22, R23, R26, R27, R31). -/
structure KeepsHostRegisters (s t : State) : Prop where
  pending : t.pending = s.pending
  controlA : t.controlA = s.controlA
  controlB : t.controlB = s.controlB
  interruptMask : t.interruptMask = s.interruptMask
  compareBufferA : t.compareBufferA = s.compareBufferA
  compareBufferB : t.compareBufferB = s.compareBufferB
  outputPinSinkA : t.outputPinSinkA = s.outputPinSinkA
  outputPinSinkB : t.outputPinSinkB = s.outputPinSinkB

/-- A host register in which `s` and `t` differ was written by `i`, with the value it has in `t`. -/
structure ChangesByWrite (i : Instr) (s t : State) : Prop where
  controlA : t.controlA ≠ s.controlA → i = .wrCtrla t.controlA
  controlB : t.controlB ≠ s.controlB → i = .wrCtrlb t.controlB
  interruptMask : t.interruptMask ≠ s.interruptMask → i = .wrMask t.interruptMask
  compareBufferA : t.compareBufferA ≠ s.compareBufferA → i = .wrCmpa t.compareBufferA
  compareBufferB : t.compareBufferB ≠ s.compareBufferB → i = .wrCmpb t.compareBufferB
  outputPinSinkA : t.outputPinSinkA ≠ s.outputPinSinkA → ∃ k, i = .attachSink .a k ∧ t.outputPinSinkA = some k
  outputPinSinkB : t.outputPinSinkB ≠ s.outputPinSinkB → ∃ k, i = .attachSink .b k ∧ t.outputPinSinkB = some k

theorem KeepsHostRegisters.changesByWrite (kept : KeepsHostRegisters s t) (i : Instr) : ChangesByWrite i s t where
  controlA h := absurd kept.controlA h
  controlB h := absurd kept.controlB h
  interruptMask h := absurd kept.interruptMask h
  compareBufferA h := absurd kept.compareBufferA h
  compareBufferB h := absurd kept.compareBufferB h
  outputPinSinkA h := absurd kept.outputPinSinkA h
  outputPinSinkB h := absurd kept.outputPinSinkB h

theorem keepsHostRegisters_ticks (k : Nat) (s : State) : KeepsHostRegisters s (ticks k s) := by
  constructor <;> simp

theorem keepsHostRegisters_advanceBy (c : ClockSelect) (n : Nat) (s : State) :
    KeepsHostRegisters s (advanceBy c n s) := by
  obtain ⟨k, e, r, ran⟩ := advanceBy_eq_carry s c n
  rw [ran]
  exact { keepsHostRegisters_ticks k s with }

theorem changesByWrite_portWrite (p : Port) (v : Byte) (s : State) :
    ChangesByWrite (writeOf p v) s (portWrite p v s) := by
  cases p <;> constructor <;> simp [portWrite, writeOf]

theorem changesByWrite_bindSink (X : Pin) (k : Nat) (s : State) :
    ChangesByWrite (.attachSink X k) s (bindSink X k s) := by
  cases X <;> constructor <;> simp [bindSink]

theorem Meaning.pending {i : Instr} {f : State → State} (h : Meaning i f) (s : State) :
    (f s).pending = s.pending := by
  cases h with
  | write p v => cases p <;> rfl
  | reset => rfl
  | advance n => exact (keepsHostRegisters_advanceBy s.clock n s).pending
  | clock c n => exact (keepsHostRegisters_advanceBy c n s).pending
  | read | foc | attachSink | tick | nonPwm | fast | phase | dispatch => simp

theorem Meaning.changesByWrite {i : Instr} {f : State → State} (h : Meaning i f) (noReset : i ≠ .reset)
    (s : State) : ChangesByWrite i s (f s) := by
  cases h with
  | write p v => exact changesByWrite_portWrite p v s
  | attachSink X k => exact changesByWrite_bindSink X k s
  | reset => exact absurd rfl noReset
  | advance n => exact (keepsHostRegisters_advanceBy s.clock n s).changesByWrite _
  | clock c n => exact (keepsHostRegisters_advanceBy c n s).changesByWrite _
  | read | foc | tick | nonPwm | fast | phase | dispatch =>
    exact KeepsHostRegisters.changesByWrite (by constructor <;> simp) _

/-- Settles O50: only the writes and ATTACHSINK change a host register, each its own and to its operand. -/
theorem hostRegistersChangeOnlyByTheirWrite : Obligations.HostRegistersChangeOnlyByTheirWrite := by
  intro i s t ran
  obtain ⟨f, meaning⟩ := exists_meaning i
  obtain rfl := meaning.eq_of_exec ran
  refine ⟨meaning.pending s, fun noReset => ?_⟩
  obtain ⟨controlA, controlB, mask, bufferA, bufferB, sinkA, sinkB⟩ := meaning.changesByWrite noReset s
  exact ⟨controlA, controlB, mask, bufferA, bufferB, sinkA, sinkB⟩

/-! ### The active compare registers -/

/-- Whether a tick of mode `m` copies the buffers: always outside the PWM modes, at BOTTOM in fast PWM, at the
latched TOP in phase-correct PWM (42_waveform_tick.md R133). -/
def synchronises (m : Mode) (s : State) : Bool :=
  match m with
  | .normal | .ctc | .reserved4 | .reserved6 => true
  | .fastpwmFf | .fastpwmOcra => s.count == 0
  | .pcpwmFf => s.count == 0xFF
  | .pcpwmOcra => s.count == s.compareA

/-- A tick copies both buffers at the instant of its mode and leaves both registers otherwise. -/
theorem tickAs_compare (m : Mode) (s : State) :
    (tickAs m s).compareA = (if synchronises m s then s.compareBufferA else s.compareA) ∧
      (tickAs m s).compareB = if synchronises m s then s.compareBufferB else s.compareB := by
  rw [tickAs_compareA, tickAs_compareB]
  cases m with
  | normal | reserved4 | reserved6 => simp [handleMode, handleNormal, synchronises]
  | ctc => simp [handleMode, handleCtc, synchronises]
  | fastpwmFf | fastpwmOcra => simp [handleMode, handleFast, synchronises, syncIf_eq]
  | pcpwmFf => simp [handleMode, handlePhase, synchronises, syncIf_eq]
  | pcpwmOcra => by_cases atTop : s.count = s.compareA <;> simp [handleMode, handlePhase, synchronises, atTop]

/-- The active compare registers of `t` are those of `s` or its buffers, and those of `s` if no tick ran in
between (10_state.md R25, R34). -/
structure Synchronised (s t : State) : Prop where
  compareA : t.compareA = s.compareA ∨ t.compareA = s.compareBufferA
  compareB : t.compareB = s.compareB ∨ t.compareB = s.compareBufferB
  unasked : t.asked = s.asked → t.compareA = s.compareA ∧ t.compareB = s.compareB

theorem synchronised_of_compare_eq (a : t.compareA = s.compareA) (b : t.compareB = s.compareB) :
    Synchronised s t :=
  ⟨.inl a, .inl b, fun _ => ⟨a, b⟩⟩

theorem synchronised_tickAs (m : Mode) (s : State) : Synchronised s (tickAs m s) := by
  obtain ⟨a, b⟩ := tickAs_compare m s
  refine ⟨?_, ?_, fun unasked => ?_⟩
  · rw [a]; split <;> simp
  · rw [b]; split <;> simp
  · rw [tickAs_asked] at unasked
    omega

/-- Over a run the buffers stay, so the registers are the first ones or the buffers. -/
theorem synchronised_ticks (k : Nat) (s : State) : Synchronised s (ticks k s) := by
  induction k with
  | zero => exact synchronised_of_compare_eq rfl rfl
  | succ k ih =>
    obtain ⟨a, b, -⟩ := synchronised_tickAs (ticks k s).mode (ticks k s)
    rw [ticks_compareBufferA] at a
    rw [ticks_compareBufferB] at b
    rw [ticks_succ]
    refine ⟨?_, ?_, fun unasked => ?_⟩
    · exact a.elim (fun kept => ih.compareA.imp kept.trans kept.trans) .inr
    · exact b.elim (fun kept => ih.compareB.imp kept.trans kept.trans) .inr
    · rw [← ticks_succ, ticks_asked] at unasked
      omega

theorem synchronised_advanceBy (c : ClockSelect) (n : Nat) (s : State) : Synchronised s (advanceBy c n s) := by
  obtain ⟨k, e, r, ran⟩ := advanceBy_eq_carry s c n
  rw [ran]
  exact { synchronised_ticks k s with }

theorem Meaning.synchronised {i : Instr} {f : State → State} (h : Meaning i f) (noReset : i ≠ .reset) (s : State) :
    Synchronised s (f s) := by
  cases h with
  | reset => exact absurd rfl noReset
  | advance n => exact synchronised_advanceBy s.clock n s
  | clock c n => exact synchronised_advanceBy c n s
  | tick m => exact synchronised_tickAs m s
  | write p v => cases p <;> exact synchronised_of_compare_eq rfl rfl
  | read | foc | attachSink | nonPwm | fast | phase | dispatch =>
    exact synchronised_of_compare_eq (by simp) (by simp)

/-- Settles O51: only a tick writes the active compare registers, and over a run the buffers stay. -/
theorem activeCompareChangesOnlyBySynchronisation : Obligations.ActiveCompareChangesOnlyBySynchronisation := by
  intro i s t ran noReset
  obtain ⟨f, meaning⟩ := exists_meaning i
  obtain rfl := meaning.eq_of_exec ran
  obtain ⟨a, b, unasked⟩ := meaning.synchronised noReset s
  exact ⟨a, b, unasked⟩

end Sys2Proof.Machine
end

section
/-! PROOFS. A pin with COM = 0: an operation that keeps the field and the level keeps the pin idle, and so do the
steps of a tick, the ticks of ADVANCE, and FOC. -/

namespace Sys2Proof.Machine

variable {s t : State}

/-- The COM field of pin `X` is 0 and its level is `l`. -/
def IdleAt (X : Pin) (l : Bool) (s : State) : Prop := s.com X = .com0 ∧ s.pinLevel X = l

variable {X : Pin} {l : Bool}

theorem com_eq_of_controlA_eq (h : t.controlA = s.controlA) (X : Pin) : t.com X = s.com X := by
  unfold State.com State.ctrl16
  cases X with
  | a => rw [comField_a_append, comField_a_append, h]
  | b => rw [comField_b_append, comField_b_append, h]

/-- Reading only `controlA` and the level, `IdleAt` passes any operation that keeps the two. -/
theorem IdleAt.of_eq (idle : IdleAt X l s) (control : t.controlA = s.controlA)
    (level : t.pinLevel X = s.pinLevel X) : IdleAt X l t :=
  ⟨(com_eq_of_controlA_eq control X).trans idle.1, level.trans idle.2⟩

theorem OnlyPin.controlA {Y : Pin} (h : OnlyPin Y s t) : t.controlA = s.controlA := by
  obtain ⟨l, calls, rfl, -⟩ := h
  exact writeLevel_controlA _ Y l

theorem OnlyPin.pinLevel_of_ne {Y : Pin} (h : OnlyPin Y s t) (ne : X ≠ Y) : t.pinLevel X = s.pinLevel X := by
  obtain ⟨l, calls, rfl, -⟩ := h
  cases X <;> cases Y <;> simp_all [writeLevel, State.pinLevel]

/-- Logic of pin `Y` that does nothing where its COM field is 0 keeps every idle pin: it is another pin, or it is
`Y` and its logic does nothing. -/
theorem IdleAt.of_onlyPin {Y : Pin} (idle : IdleAt X l s) (only : OnlyPin Y s t)
    (nothing : s.com Y = .com0 → t = s) : IdleAt X l t := by
  by_cases same : X = Y
  · subst same
    rwa [nothing idle.1]
  · exact idle.of_eq only.controlA (only.pinLevel_of_ne same)

theorem IdleAt.nonPwmPin (idle : IdleAt X l s) (Y : Pin) (c0 : Byte) : IdleAt X l (nonPwmPin Y c0 s) := by
  refine idle.of_onlyPin (onlyPin_nonPwmPin s Y c0) fun com0 => ?_
  rw [Machine.nonPwmPin, com0, nonPwmAction_com0, ite_self]

theorem IdleAt.fastPin (idle : IdleAt X l s) (Y : Pin) (c0 : Byte) : IdleAt X l (fastPin Y c0 s) := by
  refine idle.of_onlyPin (onlyPin_fastPinLogic s Y _ _ c0) fun com0 => ?_
  rw [Machine.fastPin, com0, fastPinLogic_com0]

theorem IdleAt.phasePin (idle : IdleAt X l s) (Y : Pin) (c0 : Byte) : IdleAt X l (phasePin Y c0 s) := by
  refine idle.of_onlyPin (onlyPin_phasePinLogic s Y _ _ c0) fun com0 => ?_
  rw [Machine.phasePin, com0, phasePinLogic_com0]

theorem IdleAt.forcePin (idle : IdleAt X l s) (Y : Pin) (b : Bool) : IdleAt X l (forcePin Y b s) := by
  refine idle.of_onlyPin (onlyPin_forcePin s Y b) fun com0 => ?_
  rw [Machine.forcePin, com0, nonPwmAction_com0, ite_self]

theorem pinLevel_eq_of_eq (a : t.outputPinStateA = s.outputPinStateA) (b : t.outputPinStateB = s.outputPinStateB)
    (X : Pin) : t.pinLevel X = s.pinLevel X := by
  cases X with
  | a => exact a
  | b => exact b

/-- An idle pin stays idle through an operation that keeps `controlA` and both levels. -/
theorem IdleAt.of_levels_eq (idle : IdleAt X l s) (control : t.controlA = s.controlA)
    (a : t.outputPinStateA = s.outputPinStateA) (b : t.outputPinStateB = s.outputPinStateB) : IdleAt X l t :=
  idle.of_eq control (pinLevel_eq_of_eq a b X)

/-- Every mode handler ends in the two pins' logic, and nothing before that writes a level. -/
theorem IdleAt.handleMode (idle : IdleAt X l s) (m : Mode) (c0 : Byte) : IdleAt X l (handleMode m c0 s) := by
  cases m with
  | normal | reserved4 | reserved6 =>
    exact ((idle.of_levels_eq (by simp) (by simp) (by simp)).nonPwmPin .a c0).nonPwmPin .b c0
  | ctc => exact ((idle.of_levels_eq (by simp) (by simp) (by simp)).nonPwmPin .a c0).nonPwmPin .b c0
  | fastpwmFf | fastpwmOcra =>
    exact ((idle.of_levels_eq (by simp [syncIf_eq]) (by simp [syncIf_eq]) (by simp [syncIf_eq])).fastPin .a
      c0).fastPin .b c0
  | pcpwmFf | pcpwmOcra =>
    exact ((idle.of_levels_eq (by simp [syncIf_eq]) (by simp [syncIf_eq]) (by simp [syncIf_eq])).phasePin .a
      c0).phasePin .b c0

theorem IdleAt.tickAs (idle : IdleAt X l s) (m : Mode) : IdleAt X l (tickAs m s) := by
  have handled : IdleAt X l (Machine.handleMode m s.count (detected s)) :=
    (idle.of_levels_eq (t := detected s) rfl rfl rfl).handleMode m s.count
  rw [tickAs_eq_dispatch]
  exact handled.of_levels_eq (by simp) (by simp) (by simp)

theorem IdleAt.advanceBy (idle : IdleAt X l s) (c : ClockSelect) (n : Nat) : IdleAt X l (advanceBy c n s) := by
  obtain ⟨k, e, r, ran⟩ := advanceBy_eq_carry s c n
  have run : IdleAt X l (ticks k s) := ticks_induction s (IdleAt X l) (fun u h => h.tickAs u.mode) k idle
  rw [ran]
  exact run.of_levels_eq rfl rfl rfl

theorem IdleAt.forceCompare (idle : IdleAt X l s) (a b : Bool) : IdleAt X l (forceCompare a b s) := by
  unfold Machine.forceCompare
  split
  · exact idle
  · exact (idle.forcePin .a a).forcePin .b b

/-- A command other than RESET keeps the level of an idle pin; a write of CTRLA may end the idleness. -/
theorem Meaning.pinLevel_of_idle {i : Instr} {f : State → State} (h : Meaning i f) (command : i.isCommand = true)
    (noReset : i ≠ .reset) (idle : IdleAt X l s) : (f s).pinLevel X = l := by
  cases h with
  | read p => exact (idle.of_levels_eq (by simp) (by simp) (by simp)).2
  | write p v => cases p <;> exact (pinLevel_eq_of_eq rfl rfl X).trans idle.2
  | advance n => exact (idle.advanceBy s.clock n).2
  | foc a b => exact (idle.forceCompare a b).2
  | attachSink Y k => exact (idle.of_levels_eq (by simp) (by simp) (by simp)).2
  | reset => exact absurd rfl noReset
  | tick m => simp [isCommand_tickOf] at command
  | clock c n => simp [isCommand_clockOf] at command
  | nonPwm | fast | phase => simp [isCommand_pinLogicOf] at command
  | dispatch o => simp [isCommand_dispatchOf] at command

/-- Settles O52: with its COM field 0 a pin is idle at its level, and idle it stays through the ticks. -/
theorem pinWithComZeroKeepsItsLevel : Obligations.PinWithComZeroKeepsItsLevel := by
  intro i s t command noReset ran
  obtain ⟨f, meaning⟩ := exists_meaning i
  obtain rfl := meaning.eq_of_exec ran
  have kept (X : Pin) (com0 : s.com X = .com0) : (f s).pinLevel X = s.pinLevel X :=
    meaning.pinLevel_of_idle command noReset ⟨com0, rfl⟩
  exact ⟨fun comA => kept .a (com_a_eq_com0 comA), fun comB => kept .b (com_b_eq_com0 comB)⟩

end Sys2Proof.Machine
end

section
/-! PROOFS. The sinks are only observed: a meaning run under other sinks ends in the same state but for sinks and
events. -/

namespace Sys2Proof.Machine

variable {s t : State}

/-- `t'` is `t` but for the sinks and the events. -/
def AgreesButSinks (t t' : State) : Prop :=
  { t' with outputPinSinkA := t.outputPinSinkA, outputPinSinkB := t.outputPinSinkB, events := t.events } = t

/-- A veil that leaves the listed answers of `t` hides sinks and events only. -/
theorem agreesButSinks_of_veil {t' : State} {x y : Option Nat} {a : List HostAnswer} {ev : List Event}
    (veiled : t' = veil x y a ev t) (answers : t'.answers = t.answers) : AgreesButSinks t t' := by
  obtain rfl : a = t.answers := (congrArg State.answers veiled).symm.trans answers
  rw [veiled]
  rfl

/-- A run of ticks uses up one listed answer per question. -/
theorem ticks_answers (k : Nat) (s : State) : (ticks k s).answers = s.answers.drop k := by
  induction k generalizing s with
  | zero => rfl
  | succ k ih => rw [ticks, ih, tick, tickAs_answers, List.drop_tail]

theorem advanceBy_answers (c : ClockSelect) (n : Nat) (s : State) :
    (advanceBy c n s).answers = s.answers.drop ((advanceBy c n s).asked - s.asked) := by
  obtain ⟨k, e, r, ran⟩ := advanceBy_eq_carry s c n
  rw [ran]
  show (ticks k s).answers = s.answers.drop ((ticks k s).asked - s.asked)
  rw [ticks_answers, ticks_asked, Nat.add_sub_cancel_left]

section
variable (x y : Option Nat)

theorem Blind.agreesButSinks {op : State → State} (blind : Blind op)
    (answers : ∀ u, (op u).answers = u.answers) (s : State) :
    AgreesButSinks (op s) (op { s with outputPinSinkA := x, outputPinSinkB := y }) := by
  obtain ⟨ev, veiled⟩ := blind x y s.answers s.events s
  exact agreesButSinks_of_veil veiled ((answers _).trans (answers s).symm)

theorem agreesButSinks_dispatchCase (o : Option Source) (s : State) :
    AgreesButSinks (dispatchCase o s) (dispatchCase o { s with outputPinSinkA := x, outputPinSinkB := y }) := by
  obtain ⟨ev, veiled⟩ := dispatchCase_veil o x y s.answers s.events s rfl
  refine agreesButSinks_of_veil veiled ?_
  rcases o with _ | v
  · rfl
  · rw [dispatchCase_some, dispatchCase_some]
    split <;> split <;> rfl

theorem agreesButSinks_tickAs (m : Mode) (s : State) :
    AgreesButSinks (tickAs m s) (tickAs m { s with outputPinSinkA := x, outputPinSinkB := y }) := by
  obtain ⟨ev, veiled⟩ := tickAs_veil m x y s.answers s.events s rfl
  exact agreesButSinks_of_veil veiled (by rw [tickAs_answers, tickAs_answers])

/-- Both runs ask equally often, since a veil does not touch the counter, so both use up the same answers. -/
theorem agreesButSinks_advanceBy (c : ClockSelect) (n : Nat) (s : State) :
    AgreesButSinks (advanceBy c n s) (advanceBy c n { s with outputPinSinkA := x, outputPinSinkB := y }) := by
  obtain ⟨k, ev, veiled⟩ := advanceBy_veil c n x y s.answers s.events s rfl
  have asked : (advanceBy c n { s with outputPinSinkA := x, outputPinSinkB := y }).asked = (advanceBy c n s).asked :=
    (congrArg State.asked veiled :)
  exact agreesButSinks_of_veil veiled (by rw [advanceBy_answers, advanceBy_answers, asked])

/-- Every meaning reads the sinks for its events only (10_state.md R31). -/
theorem Meaning.agreesButSinks {i : Instr} {f : State → State} (h : Meaning i f) (s : State) :
    AgreesButSinks (f s) (f { s with outputPinSinkA := x, outputPinSinkB := y }) := by
  cases h with
  | read p => cases p <;> rfl
  | write p v => cases p <;> rfl
  | advance n => exact agreesButSinks_advanceBy x y s.clock n s
  | foc a b => exact (blind_forceCompare a b).agreesButSinks x y (fun u => by simp) s
  | attachSink X k => cases X <;> rfl
  | reset => rfl
  | tick m => exact agreesButSinks_tickAs x y m s
  | clock c n => exact agreesButSinks_advanceBy x y c n s
  | nonPwm X m c c0 => exact (blind_nonPwmAction X c).agreesButSinks x y (fun u => by simp) s
  | fast X m c c0 => exact (blind_fastPinLogic X c _ c0).agreesButSinks x y (fun u => by simp) s
  | phase X m c c0 => exact (blind_phasePinLogic X c _ c0).agreesButSinks x y (fun u => by simp) s
  | dispatch o => exact agreesButSinks_dispatchCase x y o s

end

/-- Settles O54: `exec` answers by the meaning in both states, and the meaning keeps them in agreement. -/
theorem sinksOnlyObserve : Obligations.SinksOnlyObserve := by
  intro i s t x y ran
  obtain ⟨f, meaning⟩ := exists_meaning i
  obtain rfl := meaning.eq_of_exec ran
  exact ⟨_, meaning.exec_eq _, meaning.agreesButSinks x y s⟩

end Sys2Proof.Machine
end

section
/-! PROOFS. The encodings: command words by op nibble, argument nibble and data byte, what decodes and to what, and
the rows that the fields of the control registers select. -/

namespace Sys2Proof.Machine

/-! ### Command words by their nibbles -/

/-- The head byte of a command word (30_encoding.md R88). -/
def headByte (op arg : BitVec 4) : Byte := op ++ arg

theorem extract_op (op arg : BitVec 4) : (headByte op arg).extractLsb' 4 4 = op :=
  BitVec.extractLsb'_append_eq_left

theorem extract_arg (op arg : BitVec 4) : (headByte op arg).extractLsb' 0 4 = arg :=
  BitVec.extractLsb'_append_eq_right

theorem exists_nibbles (w : Word16) : ∃ (op arg : BitVec 4) (x : Byte), w = headByte op arg ++ x := by
  have nibbles (h : Byte) : h = headByte (h.extractLsb' 4 4) (h.extractLsb' 0 4) :=
    (BitVec.extractLsb'_append_extractLsb' (len := 4) (w := 4) (x := h)).symm
  exact ⟨_, _, _, nibbles (w.extractLsb' 8 8) ▸ word_eq_append w⟩

/-- The argument nibble of a port (30_encoding.md R85). -/
def portIndex : Port → BitVec 4
  | .ctrla => 0
  | .ctrlb => 1
  | .count => 2
  | .cmpa => 3
  | .cmpb => 4
  | .mask => 5
  | .flags => 6

theorem portOfIndex_eq_some_iff {arg : BitVec 4} {p : Port} : portOfIndex arg = some p ↔ arg = portIndex p := by
  cases p <;> revert arg <;> decide

theorem encode_readOf (p : Port) : encode (readOf p) = hcw (headByte 0#4 (portIndex p)) 0 := by
  cases p <;> rfl

theorem encode_writeOf (p : Port) (v : Byte) : encode (writeOf p v) = hcw (headByte 1#4 (portIndex p)) v := by
  cases p <;> rfl

theorem decodeHcw_read (p : Port) (x : Byte) (n k : Nat) :
    decodeHcw (headByte 0#4 (portIndex p) ++ x) n k = some (readOf p) := by
  simp [decodeHcw_append, extract_op, extract_arg, portOfIndex_eq_some_iff.2 rfl]

theorem decodeHcw_write (p : Port) (v : Byte) (n k : Nat) :
    decodeHcw (headByte 1#4 (portIndex p) ++ v) n k = some (writeOf p v) := by
  simp [decodeHcw_append, extract_op, extract_arg, portOfIndex_eq_some_iff.2 rfl]

theorem decodeHcw_advance (n k : Nat) : decodeHcw 0x2000 n k = some (.advance n) := rfl

theorem decodeHcw_foc (a b : Bool) (n k : Nat) :
    decodeHcw (0x3000 ||| (if a then 0x0100 else 0) ||| (if b then 0x0200 else 0)) n k = some (.foc a b) := by
  cases a <;> cases b <;> rfl

theorem decodeHcw_attachSink_a (n k : Nat) : decodeHcw 0x4000 n k = some (.attachSink .a k) := rfl

theorem decodeHcw_attachSink_b (n k : Nat) : decodeHcw 0x4100 n k = some (.attachSink .b k) := rfl

theorem decodeHcw_reset (n k : Nat) : decodeHcw 0x5000 n k = some .reset := rfl

/-! ### Decoding an encoding -/

theorem decodeCs_encode_clockOf (c : ClockSelect) (n : Nat) : decodeCs (encode (clockOf c n)).word n = clockOf c n := by
  have field : clockOfBits (csField (encode (clockOf c n)).word) = c := by
    rw [show (encode (clockOf c n)).word = (encode (clockOf c 0)).word by cases c <;> rfl]
    cases c <;> rfl
  rw [decodeCs, field]

/-- The word of a pin row has its mode and its COM value in the fields of the control word (30_encoding.md R73,
R74, R81). -/
theorem decodePin_encode_pinLogicOf (X : Pin) (m : Mode) (c : Com) (c0 c1 : Byte) :
    decodePin X (encode (pinLogicOf X m c c0)).word c1 = pinLogicOf X m c c1 := by
  have anyCount : (encode (pinLogicOf X m c c0)).word = (encode (pinLogicOf X m c 0)).word := by
    cases X <;> cases m <;> cases c <;> rfl
  have mode : modeOfBits (wgmField (encode (pinLogicOf X m c 0)).word) = m := by
    cases X <;> cases m <;> cases c <;> rfl
  have com : comOfBits (comField X (encode (pinLogicOf X m c 0)).word) = c := by
    cases X <;> cases m <;> cases c <;> rfl
  rw [decodePin, anyCount, mode, com]

theorem decode_encode_pinLogicOf (X : Pin) (m : Mode) (c : Com) (c0 : Byte) :
    decode (encode (pinLogicOf X m c c0)).format (encode (pinLogicOf X m c c0)).word
      (encode (pinLogicOf X m c c0)).beside = some (pinLogicOf X m c c0) := by
  have row := decodePin_encode_pinLogicOf X m c c0 (encode (pinLogicOf X m c c0)).beside.c0
  have carried : pinLogicOf X m c (encode (pinLogicOf X m c c0)).beside.c0 = pinLogicOf X m c c0 := by
    cases X <;> cases m <;> cases c <;> rfl
  have format : (encode (pinLogicOf X m c c0)).format = match X with | .a => .pinA | .b => .pinB := by
    cases X <;> cases m <;> cases c <;> rfl
  rw [format]
  cases X with
  | a => exact congrArg some (row.trans carried)
  | b => exact congrArg some (row.trans carried)

theorem Meaning.decode_encode {i : Instr} {f : State → State} (h : Meaning i f) :
    decode (encode i).format (encode i).word (encode i).beside = some i := by
  cases h with
  | read p => rw [encode_readOf]; exact decodeHcw_read p 0 0 0
  | write p v => rw [encode_writeOf]; exact decodeHcw_write p v 0 0
  | advance n => exact decodeHcw_advance n 0
  | foc a b => cases a <;> cases b <;> rfl
  | attachSink X k =>
    cases X with
    | a => exact decodeHcw_attachSink_a 0 k
    | b => exact decodeHcw_attachSink_b 0 k
  | reset => rfl
  | tick m => cases m <;> rfl
  | clock c n =>
    have row := congrArg some (decodeCs_encode_clockOf c n)
    cases c <;> exact row
  | nonPwm X m c c0 | fast X m c c0 | phase X m c c0 => exact decode_encode_pinLogicOf X m c c0
  | dispatch o =>
    rcases o with _ | v
    · rfl
    · cases v <;> rfl

/-- Settles O41: the instructions by kind; the words of reads and writes are the head of their port and the data
byte, and the other words are constants. -/
theorem decodeOfEncodeIsIdentity : Obligations.DecodeOfEncodeIsIdentity := by
  intro i
  obtain ⟨f, meaning⟩ := exists_meaning i
  exact meaning.decode_encode

/-! ### Encoding what decodes -/

/-- `i` is a host command with the encoded word `w`. -/
abbrev HasCommandWord (i : Instr) (w : Word16) : Prop :=
  i.isCommand = true ∧ (encode i).format = .hcw ∧ (encode i).word = w

theorem hasCommandWord_readOf (p : Port) : HasCommandWord (readOf p) (headByte 0#4 (portIndex p) ++ 0#8) := by
  cases p <;> exact ⟨rfl, rfl, rfl⟩

theorem hasCommandWord_writeOf (p : Port) (v : Byte) :
    HasCommandWord (writeOf p v) (headByte 1#4 (portIndex p) ++ v) := by
  cases p <;> exact ⟨rfl, rfl, rfl⟩

theorem hasCommandWord_foc : ∀ {arg : BitVec 4}, arg.extractLsb' 2 2 = 0 →
    HasCommandWord (.foc (arg.getLsbD 0) (arg.getLsbD 1)) (headByte 3#4 arg ++ 0#8) := by
  decide

theorem hasCommandWord_attachSink {arg : BitVec 4} (onePin : arg.extractLsb' 1 3 = 0) (k : Nat) :
    HasCommandWord (.attachSink (pinOfBit (arg.getLsbD 0)) k) (headByte 4#4 arg ++ 0#8) := by
  have atSinkZero : ∀ arg : BitVec 4, arg.extractLsb' 1 3 = 0 →
      HasCommandWord (.attachSink (pinOfBit (arg.getLsbD 0)) 0) (headByte 4#4 arg ++ 0#8) := by
    decide
  exact atSinkZero arg onePin

theorem and_FF00 (h x : Byte) : (h ++ x : Word16) &&& 0xFF00 = h ++ 0#8 := by
  have mask : (0xFF00 : Word16) = 0xFF#8 ++ 0x00#8 := rfl
  rw [mask, BitVec.and_append]
  exact congrArg₂ _ BitVec.and_allOnes BitVec.and_zero

/-- Bits 15:12 of a command word are its op. -/
theorem and_F000_eq_zero_iff (op arg : BitVec 4) (x : Byte) :
    (headByte op arg ++ x : Word16) &&& 0xF000 = 0 ↔ op = 0 := by
  have mask : (0xF000 : Word16) = 0xF0#8 ++ 0x00#8 := rfl
  have head : ∀ op arg : BitVec 4, headByte op arg &&& 0xF0#8 = 0 ↔ op = 0 := by decide
  have zero : (0 : Word16) = 0x00#8 ++ 0x00#8 := rfl
  rw [mask, BitVec.and_append, zero, append_eq_append_iff, ← head op arg]
  exact and_iff_left BitVec.and_zero

/-- Settles O42: by the op nibble; a read drops the data byte, and every other command word is its encoding. -/
theorem commandWordIsItsEncoding : Obligations.CommandWordIsItsEncoding := by
  intro w n k i decoded
  obtain ⟨op, arg, x, rfl⟩ := exists_nibbles w
  simp only [and_F000_eq_zero_iff, and_FF00]
  simp only [decodeHcw_append, extract_op, extract_arg] at decoded
  split_ifs at decoded with read write advance operands foc operands attach operands reset operands
  · obtain ⟨p, index, rfl⟩ := Option.map_eq_some_iff.1 decoded
    rw [if_pos read, read, portOfIndex_eq_some_iff.1 index]
    exact hasCommandWord_readOf p
  · obtain ⟨p, index, rfl⟩ := Option.map_eq_some_iff.1 decoded
    rw [if_neg read, write, portOfIndex_eq_some_iff.1 index]
    exact hasCommandWord_writeOf p x
  · obtain ⟨rfl, rfl⟩ := operands
    cases decoded
    rw [if_neg read, advance]
    exact ⟨rfl, rfl, rfl⟩
  · obtain ⟨pins, rfl⟩ := operands
    cases decoded
    rw [if_neg read, foc]
    exact hasCommandWord_foc pins
  · obtain ⟨onePin, rfl⟩ := operands
    cases decoded
    rw [if_neg read, attach]
    exact hasCommandWord_attachSink onePin k
  · obtain ⟨rfl, rfl⟩ := operands
    cases decoded
    rw [if_neg read, reset]
    exact ⟨rfl, rfl, rfl⟩

/-! ### Words that are no command -/

/-- Whether a word with this head byte, and a data byte that is zero or not, fits a pattern of 30_encoding.md R88:
a pattern either leaves the data byte open or wants it zero. -/
def fitsPattern (head : Byte) (noData : Bool) : Bool :=
  commandPatterns.any fun p =>
    head &&& p.2.extractLsb' 8 8 == p.1.extractLsb' 8 8 && (p.2.extractLsb' 0 8 == (0 : Byte) || noData)

theorem append_and_eq_iff (h x : Byte) (mask word : Word16) :
    (h ++ x : Word16) &&& mask = word ↔
      h &&& mask.extractLsb' 8 8 = word.extractLsb' 8 8 ∧ x &&& mask.extractLsb' 0 8 = word.extractLsb' 0 8 := by
  conv_lhs => rw [word_eq_append mask, word_eq_append word, BitVec.and_append]
  exact append_eq_append_iff ..

theorem low_commandPatterns : ∀ p ∈ commandPatterns, p.1.extractLsb' 0 8 = (0 : Byte) ∧
    (p.2.extractLsb' 0 8 = (0 : Byte) ∨ p.2.extractLsb' 0 8 = (0xFF : Byte)) := by
  simp [commandPatterns]

theorem wf_eq_fitsPattern (h x : Byte) (n k : Nat) : HostCommand.wf ⟨h ++ x, n, k⟩ = fitsPattern h (x == 0) := by
  rw [HostCommand.wf, fitsPattern, Bool.eq_iff_iff, List.any_eq_true, List.any_eq_true]
  refine exists_congr fun p => and_congr_right fun pattern => ?_
  obtain ⟨zero, opened | wanted⟩ := low_commandPatterns p pattern
  · simp [append_and_eq_iff, zero, opened]
  · have kept : x &&& 255#8 = x := BitVec.and_allOnes
    simp [append_and_eq_iff, zero, wanted, kept]

/-- The decoder reads the head byte and, for a word without data, whether the data byte is zero. -/
theorem decodeHcw_isSome (h x : Byte) (n k : Nat) : (decodeHcw (h ++ x) n k).isSome = fitsPattern h (x == 0) := by
  rw [decodeHcw_append]
  simp only [apply_ite Option.isSome, Option.isSome_map, Option.isSome_some, Option.isSome_none]
  by_cases noData : x = 0
  · simp only [noData, and_true, beq_self_eq_true]
    revert h; decide
  · simp only [noData, and_false, beq_eq_false_iff_ne.2 noData]
    revert h; decide

/-- Settles O40: decoder and patterns accept the same head bytes, with a data byte that is zero or not. -/
theorem wordsOutsideThePatternsAreRefused : Obligations.WordsOutsideThePatternsAreRefused := by
  intro c
  have accepted : c.decode.isSome = c.wf := by
    obtain ⟨w, n, k⟩ := c
    rw [word_eq_append w, wf_eq_fitsPattern]
    exact decodeHcw_isSome _ _ n k
  have refused : c.decode = none ↔ c.wf = false := by
    rw [← accepted, Option.isSome_eq_false_iff, Option.isNone_iff_eq_none]
  refine ⟨refused, fun s rest pending illFormed => ?_⟩
  rw [step, fetch_of_pending_undecodable pending (refused.2 illFormed)]

/-! ### The rows that the control registers select -/

/-- The modes in the order of their WGM values (30_encoding.md R75). -/
def modes : List Mode :=
  [.normal, .pcpwmFf, .ctc, .fastpwmFf, .reserved4, .pcpwmOcra, .reserved6, .fastpwmOcra]

/-- The clock selects in the order of their CS values (30_encoding.md R76). -/
def clocks : List ClockSelect := [.stop, .div1, .div8, .div64, .div256, .div1024, .ext6, .ext7]

/-- The pairs of mode and COM value, pair `4 * WGM + COM` of a WGM and a COM value (30_encoding.md R91). -/
def modesWithCom : List (Mode × Com) := modes ×ˢ [.com0, .com1, .com2, .com3]

theorem getElem?_modes (v : BitVec 3) : modes[v.toNat]? = some (modeOfBits v) := by
  revert v; decide

theorem getElem?_clocks (v : BitVec 3) : clocks[v.toNat]? = some (clockOfBits v) := by
  revert v; decide

theorem getElem?_modesWithCom (v : BitVec 3) (c : BitVec 2) :
    modesWithCom[4 * v.toNat + c.toNat]? = some (modeOfBits v, comOfBits c) := by
  revert v c; decide

theorem toNat_wgmField (a b : Byte) :
    (wgmField (b ++ a)).toNat = ((b.toNat >>> 3) &&& 1) * 4 + (a.toNat &&& 3) := by
  have low : ∀ a : Byte, a.toNat &&& 3 = (a.extractLsb' 0 2).toNat := by decide
  have high : ∀ b : Byte, (b.toNat >>> 3) &&& 1 = (b.extractLsb' 3 1).toNat := by decide
  have joined : ∀ (z : BitVec 1) (y : BitVec 2), (z ++ y).toNat = z.toNat * 4 + y.toNat := by decide
  rw [wgmField_append, low, high]
  exact joined _ _

theorem toNat_csField (a b : Byte) : (csField (b ++ a)).toNat = b.toNat &&& 7 := by
  rw [csField_append]
  revert b; decide

theorem toNat_comField_a (a b : Byte) : (comField .a (b ++ a)).toNat = a.toNat >>> 6 := by
  rw [comField_a_append]
  revert a; decide

theorem toNat_comField_b (a b : Byte) : (comField .b (b ++ a)).toNat = (a.toNat >>> 4) &&& 3 := by
  rw [comField_b_append]
  revert a; decide

/-- Settles O37: the tick rows are those of `modes`, and WGM is that formula. -/
theorem modeSelectorIsAssembledFromTwoRegisters : Obligations.ModeSelectorIsAssembledFromTwoRegisters := by
  intro a b
  have rows : tickRows = modes.map tickOf := rfl
  rw [rows, ← toNat_wgmField, List.getElem?_map, getElem?_modes]
  rfl

/-- Settles O38: the rows are those of `clocks` and of `modesWithCom`, and the fields are those formulas. -/
theorem clockAndComFieldsSelectTheirRows : Obligations.ClockAndComFieldsSelectTheirRows := by
  intro a b c0 n
  have rowsC : clockRows n = clocks.map (clockOf · n) := rfl
  have rowsA : pinARows c0 = modesWithCom.map fun q => pinLogicOf .a q.1 q.2 c0 := rfl
  have rowsB : pinBRows c0 = modesWithCom.map fun q => pinLogicOf .b q.1 q.2 c0 := rfl
  rw [rowsC, rowsA, rowsB, ← toNat_wgmField, ← toNat_csField a b, ← toNat_comField_a a b,
    ← toNat_comField_b a b]
  simp only [List.getElem?_map, getElem?_clocks, getElem?_modesWithCom]
  exact ⟨rfl, rfl, rfl⟩

/-- Settles O39: six command words and two that are none, and four selections from registers. -/
theorem commandWordsDecodeAsWritten : Obligations.CommandWordsDecodeAsWritten :=
  ⟨rfl, rfl, rfl, rfl, rfl, rfl, rfl, rfl, rfl, rfl, rfl, rfl⟩

/-! ### SETMODE -/

/-- The byte that SETMODE writes to CTRLA (30_encoding.md R90). -/
def setModeA (w ca cb : Nat) : Byte := BitVec.ofNat 8 (ca <<< 6 ||| cb <<< 4 ||| w &&& 3)

/-- The byte that SETMODE writes to CTRLB (30_encoding.md R90). -/
def setModeB (w cs : Nat) : Byte := BitVec.ofNat 8 ((w >>> 2) <<< 3 ||| cs)

theorem expand_setMode (w ca cb cs : Nat) :
    (Pseudo.setMode w ca cb cs).expand = [.wrCtrla (setModeA w ca cb), .wrCtrlb (setModeB w cs)] := rfl

/-- COM-A, COM-B and WGM[1:0] are in their fields (30_encoding.md R74, R81). -/
theorem setModeA_fields : ∀ w < 8, ∀ ca < 4, ∀ cb < 4,
    (setModeA w ca cb).toNat / 64 = ca ∧ (setModeA w ca cb).toNat / 16 % 4 = cb ∧
      (setModeA w ca cb).toNat &&& 3 = w % 4 := by
  decide

/-- WGM[2] and CS are in their fields (30_encoding.md R74, R76). -/
theorem setModeB_fields : ∀ w < 8, ∀ cs < 8,
    (setModeB w cs).toNat % 8 = cs ∧ ((setModeB w cs).toNat >>> 3) &&& 1 = w / 4 := by
  decide

/-- Settles O43: the two writes store `setModeA` and `setModeB`, whose WGM fields together are `w`. -/
theorem setModeSelectsItsFields : Obligations.SetModeSelectsItsFields := by
  intro s w ca cb cs legal
  obtain ⟨hw, hca, hcb, hcs⟩ := of_decide_eq_true legal
  obtain ⟨comA, comB, wgmLow⟩ := setModeA_fields w hw ca hca cb hcb
  obtain ⟨clock, wgmHigh⟩ := setModeB_fields w hw cs hcs
  refine ⟨_, _, _, _, expand_setMode w ca cb cs, exec_wrCtrla s _, exec_wrCtrlb _ _, rfl, ?_, comA, comB, clock⟩
  have wgm := (congrArg₂ (· * 4 + ·) wgmHigh wgmLow).trans (Nat.div_add_mod' w 4)
  exact (modeSelectorIsAssembledFromTwoRegisters _ _).trans (congrArg (tickRows[·]?) wgm)

end Sys2Proof.Machine
end

section
/-! PROOFS. The remaining host commands: reset, the compare ports and COUNT, repeated port accesses, the ports at host
addresses, ATTACHSINK, the clock row of ADVANCE, and forced output compare. -/

namespace Sys2Proof.Machine

/-! ### Reset -/

/-- Settles O1: `State.reset` is written with these values. -/
theorem resetStateHoldsTableValues : Obligations.ResetStateHoldsTableValues :=
  ⟨rfl, rfl, rfl, rfl, rfl, rfl, rfl, rfl, rfl, rfl, rfl, rfl, rfl, rfl, rfl, rfl⟩

/-- Settles O2: RESET is `resetTimer`, the reset state with the fields outside the timer kept. -/
theorem resetCommandRestoresTimer : Obligations.ResetCommandRestoresTimer :=
  fun s n k => ⟨decodeHcw_reset n k, exec_reset s⟩

/-! ### Ports -/

/-- Settles O4: the words have op 0 and the index of a compare port, whose field is the buffer. -/
theorem readCompareAnswersBuffer : Obligations.ReadCompareAnswersBuffer :=
  fun s x n k =>
    ⟨readWord_decodes_and_answers (p := .cmpa) (by decide) (by decide) x n k s,
     readWord_decodes_and_answers (p := .cmpb) (by decide) (by decide) x n k s⟩

/-- Settles O8: the words have op 1 and the index of a compare port, and `portWrite` sets the buffer only. -/
theorem writeCompareStagesBuffer : Obligations.WriteCompareStagesBuffer :=
  fun s v n k =>
    ⟨writeWord_decodes_and_stores (p := .cmpa) (by decide) (by decide) v n k s,
     writeWord_decodes_and_stores (p := .cmpb) (by decide) (by decide) v n k s⟩

/-- A write of COUNT leaves the inhibit flag to the parameter and to what it was (40_register_ports.md R106). -/
theorem portWrite_count (v : Byte) (s : State) :
    portWrite .count v s =
      { s with
        count := v
        inhibitNextCompareMatch := s.params.inhibitOnCountWrite || s.inhibitNextCompareMatch } := rfl

/-- Settles O7: the inhibit flag becomes parameter or old flag, which is the old flag or true. -/
theorem writeCountStoresAndInhibits : Obligations.WriteCountStoresAndInhibits := by
  intro s v n k
  obtain ⟨decoded, stored⟩ :=
    writeWord_decodes_and_stores (head := 0x12) (p := .count) (by decide) (by decide) v n k s
  refine ⟨decoded, fun without => stored.trans ?_, fun inhibits => stored.trans ?_⟩
  · rw [portWrite_count, without, Bool.false_or]
  · rw [portWrite_count, inhibits, Bool.true_or]

theorem portRead_answer (p : Port) (r : Result) (s : State) : portRead p (answer r s) = portRead p s := by
  cases p <;> rfl

theorem answer_answer (r q : Result) (s : State) : answer r (answer q s) = answer r s := rfl

theorem clearFlags_clearFlags (m : Byte) (s : State) : clearFlags m (clearFlags m s) = clearFlags m s := by
  simp [clearFlags, BitVec.and_assoc]

theorem portWrite_portWrite (p : Port) (v : Byte) (s : State) :
    portWrite p v (portWrite p v s) = portWrite p v s := by
  cases p with
  | flags => exact clearFlags_clearFlags v s
  | count => simp [portWrite_count]
  | ctrla | ctrlb | cmpa | cmpb | mask => rfl

theorem portRead_portWrite (p : Port) (v : Byte) (s : State) :
    portRead p (portWrite p v s) = if p = .flags then s.interruptFlags &&& ~~~v else v := by
  cases p <;> rfl

/-- Settles O9: a read sets the result only, a write is idempotent on its register, and a read after it finds what it
left there. -/
theorem portAccessesAreIdempotent : Obligations.PortAccessesAreIdempotent := by
  intro p v s
  refine ⟨_, _, exec_readOf p s, ?_, exec_writeOf p v s, ?_, ?_⟩
  · rw [exec_readOf, portRead_answer, answer_answer]
  · rw [exec_writeOf, portWrite_portWrite]
  · rw [exec_readOf, portRead_portWrite]
    rfl

/-! ### The bus -/

theorem mem_ports (p : Port) : p ∈ [Port.ctrla, .ctrlb, .count, .cmpa, .cmpb, .mask, .flags] := by
  cases p <;> decide

/-- The ports of a legal attachment lie at different addresses (00_scope.md R7). -/
theorem portAddr_injective {t : Attachment} (legal : t.wf = true) : Function.Injective (portAddr t) := by
  have nodup : ([Port.ctrla, .ctrlb, .count, .cmpa, .cmpb, .mask, .flags].map (portAddr t)).Nodup :=
    of_decide_eq_true (Bool.and_eq_true_iff.1 legal).1
  exact fun p q same => List.inj_on_of_nodup_map nodup (mem_ports p) (mem_ports q) same

theorem portAt_portAddr {t : Attachment} (legal : t.wf = true) (p : Port) : portAt t (portAddr t p) = some p := by
  obtain ⟨q, found⟩ : ∃ q, portAt t (portAddr t p) = some q := by
    rw [← Option.isSome_iff_exists, portAt, List.find?_isSome]
    exact ⟨p, mem_ports p, by simp⟩
  have same : portAddr t q = portAddr t p := by simpa using List.find?_some found
  rw [found, portAddr_injective legal same]

theorem portAddr_mem_addrs (t : Attachment) (p : Port) : portAddr t p ∈ t.addrs :=
  List.mem_map_of_mem (f := portAddr t) (mem_ports p)

theorem portAt_eq_none {t : Attachment} {addr : Nat} (elsewhere : addr ∉ t.addrs) : portAt t addr = none := by
  refine List.find?_eq_none.2 fun p _ here => elsewhere ?_
  exact eq_of_beq here ▸ portAddr_mem_addrs t p

/-- Settles O11: the addresses are different, so the port found at the address of a port is that port. -/
theorem busAccessIsPortCommandOrNothing : Obligations.BusAccessIsPortCommandOrNothing := by
  intro t s legal
  refine ⟨fun p v => ?_, fun addr v elsewhere => ?_⟩
  · simp only [busRead, busWrite, portAt_portAddr legal p, and_self]
  · simp only [busRead, busWrite, portAt_eq_none elsewhere, and_self]

/-! ### Sinks and clock rows -/

/-- Settles O10: both words decode to ATTACHSINK of their pin, which is `bindSink`. -/
theorem attachSinkBindsOnePin : Obligations.AttachSinkBindsOnePin :=
  fun s n k =>
    ⟨⟨decodeHcw_attachSink_a n k, exec_attachSink s .a k⟩,
     ⟨decodeHcw_attachSink_b n k, exec_attachSink s .b k⟩⟩

/-- Settles O30: ADVANCE is `advanceBy` of the clock select that the control word holds, as is its row. -/
theorem advanceRunsSelectedClockRow : Obligations.AdvanceRunsSelectedClockRow :=
  fun s n k => ⟨decodeHcw_advance n k, _, exec_clockOf s.clock n s, exec_advance s n⟩

/-! ### Forced output compare -/

/-- In a non-PWM mode FOC runs the row of a selected pin that passes its gate (42_waveform_tick.md R149). -/
theorem exec_decodePin_forcePin {s q : State} (X : Pin) (selected : Bool) (c0 : Byte) (nonPwm : isPwm s.mode = false)
    (controlA : q.controlA = s.controlA) (controlB : q.controlB = s.controlB) :
    (if selected = true ∧ (q.params.focEqualityGated = false ∨ q.compareOf X = q.count) then
        exec (decodePin X (s.controlB ++ s.controlA) c0) q
      else .next q) = .next (forcePin X selected q) := by
  rw [exec_decodePin_nonPwm X c0 nonPwm controlA controlB, forcePin]
  split <;> rfl

/-- Settles O36: the PWM modes are those with `controlA[0]` set, where FOC is the identity; elsewhere it is
`forcePin` of A and then of B. -/
theorem forcedCompareActsInNonPwmModesOnly : Obligations.ForcedCompareActsInNonPwmModesOnly := by
  intro s a b n k
  refine ⟨decodeHcw_foc a b n k, fun pwm => ?_, fun nonPwm => ?_⟩
  · rw [exec_foc, forceCompare, isPwm_eq, pwm, if_pos rfl]
  · have mode : isPwm s.mode = false := (isPwm_eq s).trans nonPwm
    have rowA := exec_decodePin_forcePin (q := s) .a a s.count mode rfl rfl
    have rowB := exec_decodePin_forcePin (q := forcePin .a a s) .b b s.count mode (by simp) (by simp)
    refine ⟨forcePin .a a s, forcePin .b b (forcePin .a a s), rowA, ?_, ?_⟩
    · simpa using rowB
    · rw [exec_foc, forceCompare, mode, if_neg Bool.false_ne_true]

end Sys2Proof.Machine
end

section
/-! PROOFS. The pin rows of the PWM modes: each as a pin driven to a level, by COM, count and direction, or as
nothing. -/

namespace Sys2Proof.Machine

variable (X : Pin) (g : Bool) (c0 : Byte) (s : State)

/-- A pin driven to a level (41_pin_driver.md R121 to R123). -/
def driven : Pin → Bool → State → State
  | .a => drivenA
  | .b => drivenB

theorem setHigh_eq_driven : setHigh X s = driven X true s := by
  cases X with
  | a => exact setHigh_a s
  | b => exact setHigh_b s

theorem setLow_eq_driven : setLow X s = driven X false s := by
  cases X with
  | a => exact setLow_a s
  | b => exact setLow_b s

theorem driveIf_compareOf (p : Prop) [Decidable p] (l : Bool) :
    (if p then driven X l s else s).compareOf X = s.compareOf X := by
  split
  · cases X <;> rfl
  · rfl

/-! ### The logic by COM value -/

/-- Fast PWM with COM 2 sets at BOTTOM, then clears at the match (42_waveform_tick.md R144). -/
theorem fastPinLogic_com2 : fastPinLogic X .com2 g c0 s =
    let b := if c0 = 0 then driven X true s else s
    if c0 = s.compareOf X then driven X false b else b := by
  simp only [fastPinLogic, fastBottomAction, fastMatchAction, setHigh_eq_driven, setLow_eq_driven, driveIf_compareOf]

/-- Fast PWM with COM 3 clears at BOTTOM, then sets at the match (42_waveform_tick.md R144). -/
theorem fastPinLogic_com3 : fastPinLogic X .com3 g c0 s =
    let b := if c0 = 0 then driven X false s else s
    if c0 = s.compareOf X then driven X true b else b := by
  simp only [fastPinLogic, fastBottomAction, fastMatchAction, setHigh_eq_driven, setLow_eq_driven, driveIf_compareOf]

/-- Phase-correct PWM with COM 2 sets while downward and clears while upward (42_waveform_tick.md R145). -/
theorem phasePinLogic_com2 : phasePinLogic X .com2 g c0 s =
    if c0 = s.compareOf X then driven X s.countingDownwards s else s := by
  rcases direction : s.countingDownwards <;>
    simp [phasePinLogic, phaseMatchAction, setHigh_eq_driven, setLow_eq_driven, direction]

/-- Phase-correct PWM with COM 3 clears while downward and sets while upward (42_waveform_tick.md R145). -/
theorem phasePinLogic_com3 : phasePinLogic X .com3 g c0 s =
    if c0 = s.compareOf X then driven X (!s.countingDownwards) s else s := by
  rcases direction : s.countingDownwards <;>
    simp [phasePinLogic, phaseMatchAction, setHigh_eq_driven, setLow_eq_driven, direction]

theorem pwmToggle_a_true : pwmToggle .a true s = drivenA (!s.outputPinStateA) s := toggle_a s

/-- With COM 1 fast PWM toggles at the match, if at all (42_waveform_tick.md R144). -/
theorem fastPinLogic_com1 :
    fastPinLogic X .com1 g c0 s = if c0 = s.compareOf X then pwmToggle X g s else s := by
  simp [fastPinLogic, fastBottomAction, fastMatchAction]

/-- With COM 1 phase-correct PWM toggles at the match, if at all (42_waveform_tick.md R145). -/
theorem phasePinLogic_com1 :
    phasePinLogic X .com1 g c0 s = if c0 = s.compareOf X then pwmToggle X g s else s := rfl

section
variable {X g} (noToggle : ¬(X = .a ∧ g = true))
include noToggle

theorem fastPinLogic_com1_of_noToggle : fastPinLogic X .com1 g c0 s = s := by
  rw [fastPinLogic_com1, pwmToggle, if_neg noToggle, ite_self]

theorem phasePinLogic_com1_of_noToggle : phasePinLogic X .com1 g c0 s = s := by
  rw [phasePinLogic_com1, pwmToggle, if_neg noToggle, ite_self]

end

/-! ### The rows -/

/-- The rows of a pin and a COM value under the given selectors (30_encoding.md R91). -/
def pwmRows (ms : List Mode) (X : Pin) (c : Com) (c0 : Byte) : List Instr := ms.map fun m => pinLogicOf X m c c0

variable {X c0 s} {c : Com} {t : State}

theorem exec_of_mem_fastRows (logic : ∀ g, fastPinLogic X c g c0 s = t) :
    ∀ i ∈ pwmRows [.fastpwmFf, .fastpwmOcra] X c c0, exec i s = .next t := by
  have fast : ∀ m ∈ [Mode.fastpwmFf, .fastpwmOcra], m = .fastpwmFf ∨ m = .fastpwmOcra := by decide
  refine List.forall_mem_map.2 fun m hm => ?_
  rw [exec_pinLogicOf_fast X m c c0 s (fast m hm), logic]

theorem exec_of_mem_phaseRows (logic : ∀ g, phasePinLogic X c g c0 s = t) :
    ∀ i ∈ pwmRows [.pcpwmFf, .pcpwmOcra] X c c0, exec i s = .next t := by
  have phase : ∀ m ∈ [Mode.pcpwmFf, .pcpwmOcra], m = .pcpwmFf ∨ m = .pcpwmOcra := by decide
  refine List.forall_mem_map.2 fun m hm => ?_
  rw [exec_pinLogicOf_phase X m c c0 s (phase m hm), logic]

/-- Settles O13: the rows of each pin are the fast PWM logic with COM 2 and with COM 3. -/
theorem fastPwmRowsActAtBottomThenMatch : Obligations.FastPwmRowsActAtBottomThenMatch :=
  fun s c0 =>
    ⟨exec_of_mem_fastRows (X := .a) (c := .com2) fun g => fastPinLogic_com2 .a g c0 s,
     exec_of_mem_fastRows (X := .a) (c := .com3) fun g => fastPinLogic_com3 .a g c0 s,
     exec_of_mem_fastRows (X := .b) (c := .com2) fun g => fastPinLogic_com2 .b g c0 s,
     exec_of_mem_fastRows (X := .b) (c := .com3) fun g => fastPinLogic_com3 .b g c0 s⟩

/-- Settles O14: the rows of each pin are the phase-correct logic with COM 2 and with COM 3. -/
theorem phaseCorrectRowsActByDirection : Obligations.PhaseCorrectRowsActByDirection :=
  fun s c0 =>
    ⟨exec_of_mem_phaseRows (X := .a) (c := .com2) fun g => phasePinLogic_com2 .a g c0 s,
     exec_of_mem_phaseRows (X := .a) (c := .com3) fun g => phasePinLogic_com3 .a g c0 s,
     exec_of_mem_phaseRows (X := .b) (c := .com2) fun g => phasePinLogic_com2 .b g c0 s,
     exec_of_mem_phaseRows (X := .b) (c := .com3) fun g => phasePinLogic_com3 .b g c0 s⟩

/-- Settles O15: COM 0 does nothing, and COM 1 is `pwmToggle`, which toggles pin A with TOGEN only. -/
theorem pwmToggleIsPinAWithTogenOnly : Obligations.PwmToggleIsPinAWithTogenOnly := by
  intro s c0
  refine ⟨?toggles, ?nothing⟩
  case toggles =>
    simp only [List.forall_mem_cons, exec_pinAWgm5Com1, exec_pinAWgm7Com1, phasePinLogic_com1, fastPinLogic_com1,
      pwmToggle_a_true]
    exact ⟨rfl, rfl, List.forall_mem_nil _⟩
  case nothing =>
    simp [phasePinLogic_com0, fastPinLogic_com0, phasePinLogic_com1_of_noToggle, fastPinLogic_com1_of_noToggle]

end Sys2Proof.Machine
end

section
/-! PROOFS. The ticks: the state in which each class of modes runs its pin rows, the counter after them, and with
that each tick as its steps; then what a tick changes and leaves. -/

namespace Sys2Proof.Machine

variable {s q r : State} {m : Mode}

/-! ### The last steps of every tick -/

/-- Once the handler has left `r`, the tick moves the counter and runs the dispatcher row selected in `r`
(42_waveform_tick.md R146, R147). -/
theorem exec_last_steps {c : Byte} (handled : handleMode m s.count (detected s) = r)
    (moved : (if r.countingDownwards then r.count - 1 else r.count + 1) = c) :
    exec (decodeIrq3 ((r.interruptFlags &&& r.interruptMask).extractLsb' 0 3)) { r with count := c }
      = .next (tickAs m s) := by
  rw [tickAs_eq_dispatch, handled, advanceCounter, moved]
  exact exec_decodeIrq3_irqBits { r with count := c }

/-! ### The non-PWM modes -/

/-- The state in which the pin rows of Normal run: synchronised, upward, overflow at 0xFF (42_waveform_tick.md
R135). -/
def normalAtPins (s : State) : State :=
  { detected s with
    compareA := s.compareBufferA
    compareB := s.compareBufferB
    countingDownwards := false
    interruptFlags := detectedFlags s ||| if s.count = 0xFF then 0x01 else 0x00 }

theorem normalAtPins_eq (s : State) :
    raiseIf (s.count == 0xFF) .ovf (countUpward (syncBuffers (detected s))) = normalAtPins s := by
  simp [normalAtPins, raiseIf, countUpward, syncBuffers, flagBit, ite_or_eq_or_ite]

/-- The row that the control word selects, run at a match with the value synchronised (42_waveform_tick.md R135). -/
theorem exec_decodePin_at_match {buffer : Byte} (X : Pin) (nonPwm : isPwm s.mode = false)
    (controlA : q.controlA = s.controlA) (controlB : q.controlB = s.controlB) (synced : q.compareOf X = buffer) :
    (if buffer = s.count then exec (decodePin X (s.controlB ++ s.controlA) s.count) q else .next q)
      = .next (nonPwmPin X s.count q) := by
  rw [exec_decodePin_nonPwm X s.count nonPwm controlA controlB, nonPwmPin, synced]
  split <;> rfl

theorem mem_normalRows {i : Instr} (row : i ∈ [Instr.tickNormal, .tickReserved4, .tickReserved6]) :
    ∃ m, i = tickOf m ∧ isPwm m = false ∧ handleMode m = handleNormal := by
  simp only [List.mem_cons, List.not_mem_nil, or_false] at row
  obtain rfl | rfl | rfl := row
  · exact ⟨.normal, rfl, rfl, rfl⟩
  · exact ⟨.reserved4, rfl, rfl, rfl⟩
  · exact ⟨.reserved6, rfl, rfl, rfl⟩

/-- Settles O16: the handler is the two selected rows in `normalAtPins`, and the counter goes up. -/
theorem normalTickRunsItsSteps : Obligations.NormalTickRunsItsSteps := by
  intro s i row selected
  obtain ⟨m, rfl, nonPwm, handler⟩ := mem_normalRows row
  have mode : isPwm s.mode = false := mode_of_decodeWgm selected ▸ nonPwm
  have handled : handleMode m s.count (detected s) =
      nonPwmPin .b s.count (nonPwmPin .a s.count (normalAtPins s)) := by
    rw [handler, handleNormal, normalAtPins_eq]
  exact ⟨_, _, _, exec_decodePin_at_match (q := normalAtPins s) .a mode rfl rfl rfl,
    exec_decodePin_at_match .b mode (by simp [normalAtPins]) (by simp [normalAtPins]) (by simp [normalAtPins]),
    exec_last_steps handled (by simp [normalAtPins]), exec_tickOf m s⟩

/-- Settles O17: as Normal, with the counter forced to 0xFF before the rows at the value just synchronised. -/
theorem ctcTickRunsItsSteps : Obligations.CtcTickRunsItsSteps := by
  intro s selected
  have mode : isPwm s.mode = false := by rw [mode_of_decodeWgm (m := .ctc) selected]; rfl
  have handled : handleMode .ctc s.count (detected s) = nonPwmPin .b s.count
      (nonPwmPin .a s.count (forceTopIf (s.count == s.compareBufferA) (normalAtPins s))) := by
    rw [handleMode, handleCtc, normalAtPins_eq]
    rfl
  have rowA := exec_decodePin_at_match (buffer := s.compareBufferA)
    (q := forceTopIf (s.count == s.compareBufferA) (normalAtPins s)) .a mode rfl rfl rfl
  refine ⟨_, _, _, ?rowA,
    exec_decodePin_at_match .b mode (by simp [normalAtPins]) (by simp [normalAtPins]) (by simp [normalAtPins]),
    exec_last_steps handled ?moved, exec_tickCtc s⟩
  case rowA =>
    rw [← rowA]
    by_cases atTop : s.compareBufferA = s.count
    · rw [if_pos atTop, if_pos atTop, beq_iff_eq.2 (Eq.symm atTop)]
      rfl
    · rw [if_neg atTop, if_neg atTop, beq_false_of_ne (Ne.symm atTop)]
      rfl
  case moved => by_cases atTop : s.count = s.compareBufferA <;> simp [normalAtPins, atTop]

/-! ### Fast PWM -/

/-- The state in which the pin rows of fast PWM run: synchronised at BOTTOM, upward, overflow and forced wrap at the
latched TOP (42_waveform_tick.md R138). -/
def fastAtPins (top : Byte) (s : State) : State :=
  { detected s with
    compareA := if s.count = 0 then s.compareBufferA else s.compareA
    compareB := if s.count = 0 then s.compareBufferB else s.compareB
    countingDownwards := false
    count := if s.count = top then 0xFF else s.count
    interruptFlags := detectedFlags s ||| if s.count = top then 0x01 else 0x00 }

theorem handleFast_detected (top : Byte) (s : State) :
    handleFast top s.count (detected s) = fastPin .b s.count (fastPin .a s.count (fastAtPins top s)) := by
  have start : raiseIf (s.count == top) .ovf (forceTopIf (s.count == top)
      (countUpward (if s.count = 0 then syncBuffers (detected s) else detected s))) = fastAtPins top s := by
    simp [syncIf_eq, fastAtPins, raiseIf, forceTopIf, countUpward, flagBit, ite_or_eq_or_ite]
  rw [handleFast, start]

/-- Settles O18: the handler with the latched TOP is the two selected rows in `fastAtPins`, and from TOP the counter
wraps. -/
theorem fastPwmTickRunsItsSteps : Obligations.FastPwmTickRunsItsSteps := by
  intro s i top row selected
  obtain ⟨m, rfl, fast, handler⟩ : ∃ m, i = tickOf m ∧ (m = .fastpwmFf ∨ m = .fastpwmOcra) ∧
      handleMode m s.count (detected s) = handleFast top s.count (detected s) := by
    obtain ⟨rfl, rfl⟩ | ⟨rfl, rfl⟩ := row
    · exact ⟨.fastpwmFf, rfl, .inl rfl, rfl⟩
    · exact ⟨.fastpwmOcra, rfl, .inr rfl, rfl⟩
  rw [← mode_of_decodeWgm selected] at fast
  refine ⟨_, _, _, exec_decodePin_fast (q := fastAtPins top s) .a s.count fast rfl rfl,
    exec_decodePin_fast .b s.count fast (by simp [fastAtPins]) (by simp [fastAtPins]),
    exec_last_steps (handler.trans (handleFast_detected top s)) ?_, exec_tickOf m s⟩
  by_cases atTop : s.count = top <;> simp [fastAtPins, atTop]

/-! ### Phase-correct PWM -/

/-- The state in which the pin rows of phase-correct PWM run: synchronised at the latched TOP, the direction after the
turn, overflow at the BOTTOM turn (42_waveform_tick.md R141). -/
def phaseAtPins (top : Byte) (s : State) : State :=
  { detected s with
    compareA := if s.count = top then s.compareBufferA else s.compareA
    compareB := if s.count = top then s.compareBufferB else s.compareB
    countingDownwards := if s.countingDownwards then !decide (s.count = 0) else decide (s.count = top)
    interruptFlags := detectedFlags s ||| if s.countingDownwards = true ∧ s.count = 0 then 0x01 else 0x00 }

theorem turn_eq (top c0 : Byte) (s : State) : turn top c0 s =
    { s with
      countingDownwards := if s.countingDownwards then !decide (c0 = 0) else decide (c0 = top)
      interruptFlags := s.interruptFlags ||| if s.countingDownwards = true ∧ c0 = 0 then 0x01 else 0x00 } := by
  ext1 <;> simp [turn_countingDownwards, turn_interruptFlags, ite_or_eq_or_ite]

theorem handlePhase_detected (top : Byte) (s : State) :
    handlePhase top s.count (detected s) = phasePin .b s.count (phasePin .a s.count (phaseAtPins top s)) := by
  have start : turn top s.count (if s.count = top then syncBuffers (detected s) else detected s) =
      phaseAtPins top s := by
    rw [syncIf_eq, turn_eq]
    rfl
  rw [handlePhase, start]

/-- Settles O19: the handler with the latched TOP is the two selected rows in `phaseAtPins`, and the counter moves in
the direction they saw. -/
theorem phaseCorrectTickRunsItsSteps : Obligations.PhaseCorrectTickRunsItsSteps := by
  intro s i top down row selected turned
  subst turned
  obtain ⟨m, rfl, phase, handler⟩ : ∃ m, i = tickOf m ∧ (m = .pcpwmFf ∨ m = .pcpwmOcra) ∧
      handleMode m s.count (detected s) = handlePhase top s.count (detected s) := by
    obtain ⟨rfl, rfl⟩ | ⟨rfl, rfl⟩ := row
    · exact ⟨.pcpwmFf, rfl, .inl rfl, rfl⟩
    · exact ⟨.pcpwmOcra, rfl, .inr rfl, rfl⟩
  rw [← mode_of_decodeWgm selected] at phase
  exact ⟨_, _, _, exec_decodePin_phase (q := phaseAtPins top s) .a s.count phase rfl rfl,
    exec_decodePin_phase .b s.count phase (by simp [phaseAtPins]) (by simp [phaseAtPins]),
    exec_last_steps (handler.trans (handlePhase_detected top s)) (by simp [phaseAtPins]), exec_tickOf m s⟩

/-! ### Counter and direction -/

/-- Outside the phase-correct modes a tick leaves the direction upward (42_waveform_tick.md R135, R136, R138). -/
theorem tickAs_countingDownwards_of_clears (clears : m ∉ [Mode.pcpwmFf, .pcpwmOcra]) (s : State) :
    (tickAs m s).countingDownwards = false := by
  rw [tickAs_countingDownwards]
  cases m with
  | normal | reserved4 | reserved6 => simp [handleMode, handleNormal]
  | ctc => simp [handleMode, handleCtc]
  | fastpwmFf | fastpwmOcra => simp [handleMode, handleFast]
  | pcpwmFf | pcpwmOcra => simp at clears

/-- With TOP 0xFF the wrap of fast PWM is that of the counter. -/
theorem tickAs_count_fastpwmFf (s : State) : (tickAs .fastpwmFf s).count = s.count + 1 := by
  rw [tickAs_count_of_fast (top := 0xFF) rfl]
  split
  · next atTop => rw [atTop]; rfl
  · rfl

/-- Settles O20: the counter and the direction of each mode. -/
theorem tickCountAndDirection : Obligations.TickCountAndDirection := by
  intro s
  have upward (m : Mode) (clears : m ∉ [Mode.pcpwmFf, .pcpwmOcra]) := tickAs_countingDownwards_of_clears clears s
  have up (m : Mode) (clears : m ∉ [Mode.pcpwmFf, .pcpwmOcra]) (count : (tickAs m s).count = s.count + 1) :
      ∃ t : State, exec (tickOf m) s = .next t ∧ t.count = s.count + 1 ∧ t.countingDownwards = false :=
    ⟨_, exec_tickOf m s, count, upward m clears⟩
  have turns (m : Mode) (top : Byte)
      (handler : handleMode m s.count (detected s) = handlePhase top s.count (detected s)) :
      ∃ t : State, exec (tickOf m) s = .next t ∧
        t.countingDownwards = (if s.countingDownwards then !decide (s.count = 0) else decide (s.count = top)) ∧
        t.count = if t.countingDownwards then s.count - 1 else s.count + 1 :=
    ⟨_, exec_tickOf m s, tickAs_countingDownwards_of_phase handler, tickAs_count_of_phase handler⟩
  simp only [List.forall_mem_cons]
  exact
    ⟨⟨up .normal (by decide) (tickAs_count_of_normal rfl), up .reserved4 (by decide) (tickAs_count_of_normal rfl),
      up .reserved6 (by decide) (tickAs_count_of_normal rfl), up .fastpwmFf (by decide) (tickAs_count_fastpwmFf s),
      List.forall_mem_nil _⟩,
     ⟨_, exec_tickCtc s, upward .ctc (by decide), tickAs_count_ctc s⟩,
     ⟨_, exec_tickFastpwmOcra s, upward .fastpwmOcra (by decide), tickAs_count_of_fast rfl⟩,
     turns .pcpwmFf 0xFF rfl, turns .pcpwmOcra s.compareA rfl, List.forall_mem_nil _⟩

/-! ### Synchronisation, frame and events -/

/-- Settles O22: each row synchronises at the instant of its mode. -/
theorem tickSynchronisesBuffersAtItsInstant : Obligations.TickSynchronisesBuffersAtItsInstant := by
  intro s
  have row (m : Mode) (p : Prop) [Decidable p] (instant : synchronises m s = decide p) :
      ∃ t : State, exec (tickOf m) s = .next t ∧ t.compareA = (if p then s.compareBufferA else s.compareA) ∧
        t.compareB = (if p then s.compareBufferB else s.compareB) := by
    obtain ⟨compareA, compareB⟩ := tickAs_compare m s
    exact ⟨_, exec_tickOf m s, by simp [compareA, instant], by simp [compareB, instant]⟩
  simp only [List.forall_mem_cons]
  exact
    ⟨⟨row .normal True rfl, row .ctc True rfl, row .reserved4 True rfl, row .reserved6 True rfl,
      List.forall_mem_nil _⟩,
     ⟨row .fastpwmFf _ rfl, row .fastpwmOcra _ rfl, List.forall_mem_nil _⟩,
     row .pcpwmFf _ rfl, row .pcpwmOcra _ rfl, List.forall_mem_nil _⟩

theorem tickKeeps_tickAs (m : Mode) (s : State) : TickKeeps s (tickAs m s) := by
  simp [TickKeeps]

/-- Settles O23: a tick writes none of these, its detection clears the inhibit flag and its dispatcher asks once. -/
theorem tickFrame : Obligations.TickFrame := by
  intro s i row
  obtain ⟨m, rfl⟩ := mem_tickRows row
  exact ⟨_, exec_tickOf m s, tickKeeps_tickAs m s, tickAs_inhibitNextCompareMatch m s, tickAs_asked s m,
    tickAs_answers s m⟩

/-- Settles O24: the handler appends the sink calls of A and then of B, and the dispatcher its request after them. -/
theorem tickEventOrder : Obligations.TickEventOrder := by
  intro s i row
  obtain ⟨m, rfl⟩ := mem_tickRows row
  obtain ⟨callsA, callsB, called, calledA, calledB⟩ := handleMode_events m s.count (detected s)
  obtain ⟨req, requested, atMostOne⟩ := dispatch_events (advanceCounter (handleMode m s.count (detected s)))
  refine ⟨_, callsA, callsB, req, exec_tickOf m s, ?_, calledA, calledB, by simpa [answerOf] using atMostOne⟩
  rw [tickAs_eq_dispatch, requested, advanceCounter_events, called]
  rfl

/-- Settles O26: at 0xFF each of these modes sets overflow, which is then pending and enabled in the dispatcher. -/
theorem overflowSetAndGrantedInOneTick : Obligations.OverflowSetAndGrantedInOneTick := by
  intro s i row atTop unmasked enabled
  obtain ⟨m, rfl, overflows⟩ : ∃ m, i = tickOf m ∧ overflowBit m s = 0x01 := by
    simp only [List.mem_cons, List.not_mem_nil, or_false] at row
    obtain rfl | rfl | rfl | rfl | rfl := row
    · exact ⟨.normal, rfl, if_pos atTop⟩
    · exact ⟨.ctc, rfl, if_pos atTop⟩
    · exact ⟨.reserved4, rfl, if_pos atTop⟩
    · exact ⟨.reserved6, rfl, if_pos atTop⟩
    · exact ⟨.fastpwmFf, rfl, if_pos atTop⟩
  have granted : tickAs m s = _ := (tickAs_eq_dispatch m s).trans <|
    dispatch_of_ovf (by simp [handleMode_detected_interruptFlags, overflows]) (by simpa using unmasked)
      (by simpa [answerOf] using enabled)
  refine ⟨_, exec_tickOf m s, ?_, ?_⟩
  · rw [granted]; simp
  · rw [granted]; simp [requestEvents]

/-- Settles O27: the handlers of the three modes are one. -/
theorem reservedSelectorsRunAsNormal : Obligations.ReservedSelectorsRunAsNormal :=
  fun s => ⟨tickAs .normal s, exec_tickNormal s, exec_tickReserved4 s, exec_tickReserved6 s⟩

end Sys2Proof.Machine
end
